-- ==== Sys2Proof/Word.lean ====
section
/-! DEFINITION. The word types of FGA-CORE (00_scope.md R8): a word is 32 bits, a canvas cell is 8 bits
(10_state.md R39), a host bus address is 24 bits (20_memory.md R60). -/

namespace Sys2Proof

/-- A 32-bit word, bit 31 the most significant (R8). -/
abbrev Word := BitVec 32

/-- An unsigned 8-bit intensity (R39). -/
abbrev Byte := BitVec 8

/-- A byte address on the 24-bit host bus (R60). -/
abbrev BusAddr := BitVec 24

end Sys2Proof
end

