-- ==== Sys2Proof/Syntax.lean ====
section
/-! DEFINITION. The commands of FGA-CMD version 1: one constructor per row of spec/opcode_table.json. No
command word has an operand field (30_encoding.md R90, R91), so no constructor has an argument. -/

namespace Sys2Proof

/-- The eight commands of the opcode map (30_encoding.md R92). -/
inductive Instr
  /-- no operation (R120) -/
  | nop
  /-- advance the pseudo-random state (R122) -/
  | prng
  /-- hash noise at an integer point (R125) -/
  | noise
  /-- sine table lookup (R129) -/
  | sine
  /-- evaluate one pixel into RESULT (R180) -/
  | eval
  /-- evaluate every pixel into the canvas (R181) -/
  | fill
  /-- Floyd–Steinberg dither of the canvas in place (R225) -/
  | dither
  /-- FILL then DITHER as one command (R226) -/
  | render
  deriving DecidableEq, Repr

end Sys2Proof
end

