-- ==== Sys2Proof/Decode.lean ====
section
/-! DEFINITION. Decoding of command words (30_encoding.md R90-R95), total on every 32-bit word and on every
byte list, rejecting by name; then the encoder, written from the same table (R92), and the reader of one
row of spec/opcode_table.json. -/

namespace Sys2Proof

/-- Why a command word, or a list of bytes, is no command. -/
inductive DecodeReject
  /-- fewer than the four bytes of a word -/
  | truncated
  /-- RSV, bits 31:8, is not 0 (R93) -/
  | reservedBits
  /-- RSV is 0 and OPC is in 0x08 … 0xFF (R93) -/
  | unknownOpcode
  deriving DecidableEq, Repr

/-- What a decoder answers. -/
inductive Decoded (α : Type)
  | ok (a : α)
  | reject (r : DecodeReject)
  deriving DecidableEq, Repr

/-- OPC, bits 7:0 of the command word (R90). -/
def fieldOpc (w : Word) : BitVec 8 := w.extractLsb' 0 8

/-- RSV, bits 31:8 of the command word (R90). -/
def fieldRsv (w : Word) : BitVec 24 := w.extractLsb' 8 24

/-- The command an opcode selects (R92, R94). -/
def decodeOpc (opc : BitVec 8) : Decoded Instr :=
  match opc.toNat with
  | 0x00 => .ok .nop
  | 0x01 => .ok .prng
  | 0x02 => .ok .noise
  | 0x03 => .ok .sine
  | 0x04 => .ok .eval
  | 0x05 => .ok .fill
  | 0x06 => .ok .dither
  | 0x07 => .ok .render
  | _ => .reject .unknownOpcode

/-- Decoding of the latched word (R94). -/
def decode (w : Word) : Decoded Instr :=
  if fieldRsv w = 0 then decodeOpc (fieldOpc w) else .reject .reservedBits

/-- The word of four byte lanes, lane 0 first, each lane k bits 8k+7 … 8k (20_memory.md R64). -/
def wordOfLanes (b0 b1 b2 b3 : BitVec 8) : Word := b3 ++ b2 ++ b1 ++ b0

/-- Lane `k` of a word (R64). -/
def laneOf (w : Word) (k : Nat) : BitVec 8 := w.extractLsb' (8 * k) 8

/-- Decoding of the first four bytes of a list, lane 0 first, with the bytes left over. -/
def decodeBytes (bs : List (BitVec 8)) : Decoded (Instr × List (BitVec 8)) :=
  match bs with
  | b0 :: b1 :: b2 :: b3 :: rest =>
    match decode (wordOfLanes b0 b1 b2 b3) with
    | .ok i => .ok (i, rest)
    | .reject r => .reject r
  | _ => .reject .truncated

/-- The opcode of a command (R92). -/
def opcodeOf (i : Instr) : BitVec 8 :=
  match i with
  | .nop => 0x00#8
  | .prng => 0x01#8
  | .noise => 0x02#8
  | .sine => 0x03#8
  | .eval => 0x04#8
  | .fill => 0x05#8
  | .dither => 0x06#8
  | .render => 0x07#8

/-- The command word of a command: RSV = 0, OPC its opcode (R90, R92). -/
def encode (i : Instr) : Word := 0#24 ++ opcodeOf i

/-- The four byte lanes of a command word, lane 0 first (R64). -/
def encodeBytes (i : Instr) : List (BitVec 8) :=
  [laneOf (encode i) 0, laneOf (encode i) 1, laneOf (encode i) 2, laneOf (encode i) 3]

/-- The 32-bit command word a table row of `nbits` bits with value `w` stands for: the bits above `nbits`
are 0. -/
def tableWord (nbits w : Nat) : Word := BitVec.ofNat 32 (w % 2 ^ nbits)

/-- The command the decoder reads from a row of spec/opcode_table.json, given as the four bytes of its
word in lane order. -/
def decodeTableWord (nbits w : Nat) : Option Instr :=
  let v := tableWord nbits w
  match decodeBytes [laneOf v 0, laneOf v 1, laneOf v 2, laneOf v 3] with
  | .ok (i, _) => some i
  | .reject _ => none

end Sys2Proof
end

