-- ==== Sys2Proof/Machine/Bits.lean ====
section
/-! DEFINITION. Notation of 00_scope.md R8 and R9 on words, bytes and integers. -/

namespace Sys2Proof.Machine

/-- `word(n)`: n mod 2^32 (R8). -/
def word (n : Int) : Word := BitVec.ofInt 32 n

/-- `zext_32` of a byte (R8). -/
def zext32 (b : Byte) : Word := b.setWidth 32

/-- `sext_32` of a small two's-complement value (R8). -/
def sext32 (n : Int) : Word := word n

/-- `tdiv(a, b)`: integer division truncating toward zero (R9). -/
def tdiv (a b : Int) : Int := Int.tdiv a b

/-- `clamp(v, lo, hi)` (R9). -/
def clamp (v lo hi : Int) : Int := if v < lo then lo else if v > hi then hi else v

/-- A byte as the integer it stands for (R39). -/
def byteInt (b : Byte) : Int := (b.toNat : Int)

/-- The byte of an integer of 0 … 255. -/
def intByte (n : Int) : Byte := BitVec.ofInt 8 n

end Sys2Proof.Machine
end

