-- ==== Sys2Proof/Config.lean ====
section
/-! DEFINITION. What an instance of the block fixes (00_scope.md R6) and the free values: what the spec
calls a `draw` (R11) or leaves open is an opaque constant here, applied to a counter that State holds, so
that nothing in Lean can evaluate it and every theorem holds for every value of it. The parameters of an
instance are State's fields `width`, `height` and `block`; the type of `block` is in Machine/Params.lean. -/

namespace Sys2Proof

/-- Default canvas width W (R6). -/
def Config.defaultWidth : Nat := 128

/-- Default canvas height H (R6). -/
def Config.defaultHeight : Nat := 64

/-- The limit on W·H that keeps the canvas inside the host bus map (R6, R60). -/
def Config.maxCells : Nat := 2 ^ 20

/-- The default of `ID_VALUE` (R6, R22). -/
def Config.idValue : Word := 0x46474131#32

/-- The free 32-bit value of draw slot `k` (R11). Used for the conversion draws of R161, TIME (R251), the
wrap of frame_count (M1), the value the host takes from an error response (R286) and the byte of a value that is no
number (log 24). Notes: log 2. -/
opaque Config.freeWord : Nat → Word

/-- The reset draw of canvas byte `i` after the `r`-th reset event (R312). Notes: log 1. -/
opaque Config.resetByte : Nat → Nat → Byte

/-- How many host steps come before the engine's step for the command issued at draw slot `k`
(R318: finite, otherwise free). Notes: log 3. -/
opaque Config.freePolls : Nat → Nat

/-- Whether `DISPLAY_ON_VALUE` is 255 (otherwise it is 0): the open parameter of R265. Notes: log 12. -/
opaque Config.displayOnIs255 : Bool

/-- The free word behind the default ATAN2_F32 where R178 states no value, only its range: an operand that is
infinite or NaN, or `y = ±0` with `x = −0`. No command reaches it. Notes: log 7. -/
opaque Config.atan2Open : Word → Word → Word

/-- The free word behind an ATAN2_F32 that is some library's function, of which R178 states only the range and
that it depends on its operands alone. Notes: log 5. -/
opaque Config.atan2Library : Word → Word → Word

end Sys2Proof
end

