-- ==== Sys2Proof/Machine/Float32.lean ====
section
/-! DEFINITION. IEEE 754 binary32 with round to nearest even on bit patterns (00_scope.md R7, R10): no
fused operations, subnormals kept, every NaN result the canonical 0x7FC00000. Each finite binary32 value is
a whole number of units of 2^−149; every operation is computed exactly on those integers and rounded once at
the end (log 19). -/

namespace Sys2Proof.Machine

/-- A binary32 value by its bit pattern: `f32(0x…)` of R10 is the pattern itself. -/
abbrev F32 := BitVec 32

/-- The canonical quiet NaN (R10). -/
def canonicalNaN : F32 := 0x7FC00000#32

/-- The sign bit. -/
def fSign (a : F32) : Bool := a.msb

/-- The pattern without its sign bit. -/
def fMag (a : F32) : Nat := a.toNat % 2 ^ 31

/-- Pattern magnitude of the infinities. -/
def infMag : Nat := 0x7F800000

def fIsNaN (a : F32) : Bool := infMag < fMag a
def fIsInf (a : F32) : Bool := fMag a == infMag
def fIsFinite (a : F32) : Bool := fMag a < infMag
def fIsZero (a : F32) : Bool := fMag a == 0

/-- How many units of 2^−149 the finite pattern magnitude `m` stands for: m itself where the exponent
field is 0 or 1, else the 24-bit significand shifted by the exponent field less 1. -/
def magUnits (m : Nat) : Nat :=
  let e := m / 2 ^ 23
  if e = 0 then m else (2 ^ 23 + m % 2 ^ 23) * 2 ^ (e - 1)

/-- The magnitude of a finite value in units of 2^−149. -/
def fAbsUnits (a : F32) : Nat := magUnits (fMag a)

/-- A finite value in units of 2^−149. -/
def fUnits (a : F32) : Int := if fSign a then -(fAbsUnits a : Int) else (fAbsUnits a : Int)

/-- How many units of 2^−149 one unit value 1.0 is. -/
def unitOne : Nat := 2 ^ 149

/-- How many low bits a magnitude of `q` units loses so that 24 significant bits stay. -/
def droppedBits (q : Nat) : Nat := q.log2 - 23

/-- `num / den` rounded to the nearest integer, ties to even (`den` > 0). -/
def divRoundEven (num den : Nat) : Nat :=
  let q := num / den
  let r := num % den
  if den < 2 * r ∨ (2 * r = den ∧ q % 2 = 1) then q + 1 else q

/-- The pattern magnitude nearest to `num / den` units, ties to even; at or past the overflow threshold the
pattern of infinity (R10). The exponent field grows by the carry when the significand rounds up to 2^24. -/
def roundMag (num den : Nat) : Nat :=
  let k := droppedBits (num / den)
  min (k * 2 ^ 23 + divRoundEven num (den * 2 ^ k)) infMag

/-- The pattern with this sign and pattern magnitude. -/
def fPack (neg : Bool) (mag : Nat) : F32 := BitVec.ofNat 32 (if neg then 2 ^ 31 + mag else mag)

/-- The binary32 value nearest to `± num / den` units. -/
def fRound (neg : Bool) (num den : Nat) : F32 := fPack neg (roundMag num den)

/-- The same magnitude with the other sign. -/
def fNeg (a : F32) : F32 := a ^^^ 0x80000000#32

/-- `a ⊕ b` (R10). -/
def fadd (a b : F32) : F32 :=
  if fIsNaN a || fIsNaN b then canonicalNaN
  else if fIsInf a then (if fIsInf b && fSign a != fSign b then canonicalNaN else a)
  else if fIsInf b then b
  else
    let u := fUnits a + fUnits b
    if u = 0 then fPack (fSign a && fSign b) 0 else fRound (decide (u < 0)) u.natAbs 1

/-- `a ⊖ b` (R10). -/
def fsub (a b : F32) : F32 := fadd a (fNeg b)

/-- `a ⊗ b` (R10). -/
def fmul (a b : F32) : F32 :=
  let neg := fSign a != fSign b
  if fIsNaN a || fIsNaN b then canonicalNaN
  else if fIsInf a || fIsInf b then (if fIsZero a || fIsZero b then canonicalNaN else fPack neg infMag)
  else fRound neg (fAbsUnits a * fAbsUnits b) unitOne

/-- `a ⊘ b` (R10). -/
def fdiv (a b : F32) : F32 :=
  let neg := fSign a != fSign b
  if fIsNaN a || fIsNaN b then canonicalNaN
  else if fIsInf a then (if fIsInf b then canonicalNaN else fPack neg infMag)
  else if fIsInf b then fPack neg 0
  else if fIsZero b then (if fIsZero a then canonicalNaN else fPack neg infMag)
  else fRound neg (fAbsUnits a * unitOne) (fAbsUnits b)

/-- The largest `r` with `r² ≤ n`, given that `acc` is a lower bound that only needs bits below `k`. -/
def isqrtBits (n acc : Nat) : Nat → Nat
  | 0 => acc
  | k + 1 => if (acc + 2 ^ k) * (acc + 2 ^ k) ≤ n then isqrtBits n (acc + 2 ^ k) k else isqrtBits n acc k

/-- The integer square root. -/
def isqrt (n : Nat) : Nat := isqrtBits n 0 (n.log2 / 2 + 1)

/-- `fsqrt(a)`, correctly rounded (R178): the integer root in half units, made odd where it is inexact, so
that the one rounding sees on which side of a tie the exact root lies. -/
def fsqrt (a : F32) : F32 :=
  if fIsNaN a then canonicalNaN
  else if fIsZero a then a
  else if fSign a then canonicalNaN
  else if fIsInf a then a
  else
    let n := fAbsUnits a * unitOne
    let r := isqrt n
    fRound false (2 * r + (if r * r = n then 0 else 1)) 2

/-- `ffmod(a, b)`: the exact remainder with the sign of the dividend (R10). -/
def ffmod (a b : F32) : F32 :=
  if fIsNaN a || fIsNaN b || fIsInf a || fIsZero b then canonicalNaN
  else if fIsInf b then a
  else fRound (fSign a) (fAbsUnits a % fAbsUnits b) 1

/-- `cvt_f32(n)` (R10). -/
def cvtF32 (n : Int) : F32 := fRound (decide (n < 0)) (n.natAbs * unitOne) 1

/-- Position of a pattern on the number line; both zeros are at 0. -/
def fOrder (a : F32) : Int := if fSign a then -(fMag a : Int) else (fMag a : Int)

/-- `a < b`: false with a NaN operand (R10). -/
def flt (a b : F32) : Bool := !fIsNaN a && !fIsNaN b && decide (fOrder a < fOrder b)

/-- `a ≤ b`: false with a NaN operand (R10). -/
def fle (a b : F32) : Bool := !fIsNaN a && !fIsNaN b && decide (fOrder a ≤ fOrder b)

/-- `trunc(v)` of a finite value: its integer part toward zero (41_pattern.md R161). -/
def fTrunc (a : F32) : Int := Int.tdiv (fUnits a) (unitOne : Int)

/-- `floor(v)` of a finite value (41_pattern.md R177). -/
def fFloor (a : F32) : Int := fUnits a / (unitOne : Int)

/-- `f32(d)` for the decimal `± num / den` (30_encoding.md R96). -/
def f32OfDecimal (neg : Bool) (num den : Nat) : F32 := fRound neg (num * unitOne) den

end Sys2Proof.Machine
end

