-- ==== Sys2Proof/Machine/Params.lean ====
section
/-! DEFINITION. The parameters of 00_scope.md R6 that the block takes beside W and H, with their defaults. State
holds them, no step changes them, and a statement that depends on a default names it (log 5). -/

namespace Sys2Proof.Machine

/-- One value of a tabulated arctangent: ATAN2_F32(y, x) = angle. -/
structure Atan2Entry where
  y : F32
  x : F32
  angle : F32
  deriving DecidableEq, Repr

/-- The parameter ATAN2_F32, as plain data (00_scope.md R6, 41_pattern.md R178). -/
inductive Atan2Parameter
  /-- the default: the binary32 value nearest the exact angle -/
  | nearest
  /-- any function of the two operands into the range of R178: free, so a statement about it holds for all -/
  | library
  /-- the listed values, and the default for operands not listed -/
  | table (entries : List Atan2Entry)
  deriving DecidableEq, Repr

/-- The parameters of an instance other than W and H (R6). -/
structure BlockParameters where
  /-- SINE_TABLE, the 64 signed entries of the sine ROM (R41, R128) -/
  sineTable : List Int
  /-- RADIAL_SCALE -/
  radialScale : F32
  /-- TWO_PI -/
  twoPi : F32
  /-- ATAN2_F32 -/
  atan2 : Atan2Parameter
  /-- BLEND_A -/
  blendA : F32
  /-- BLEND_B -/
  blendB : F32
  /-- ID_VALUE -/
  idValue : Word
  deriving DecidableEq, Repr

/-- Row 0 of the default SINE_TABLE: entries 0 … 15 (40_primitives.md R128). -/
def sineRow0 : List Int := [0, 6, 12, 19, 24, 30, 36, 41, 45, 49, 53, 56, 59, 61, 63, 64]

/-- Entries 16 … 31 (R128). -/
def sineRow1 : List Int := [64, 64, 63, 61, 59, 56, 53, 49, 45, 41, 36, 30, 24, 19, 12, 6]

/-- Entries 32 … 47 (R128). -/
def sineRow2 : List Int := [0, -6, -12, -19, -24, -30, -36, -41, -45, -49, -53, -56, -59, -61, -63, -64]

/-- Entries 48 … 63; the last two are 0 (R128). -/
def sineRow3 : List Int := [-64, -64, -63, -61, -59, -56, -53, -49, -45, -41, -36, -30, -24, -19, 0, 0]

/-- The default SINE_TABLE (R128). -/
def defaultSineTable : List Int := sineRow0 ++ sineRow1 ++ sineRow2 ++ sineRow3

/-- The defaults of R6: √2, 2π, 0.7 and 0.3 rounded to binary32. -/
def BlockParameters.default : BlockParameters where
  sineTable := defaultSineTable
  radialScale := 0x3FB504F3#32
  twoPi := 0x40C90FDB#32
  atan2 := .nearest
  blendA := 0x3F333333#32
  blendB := 0x3E99999A#32
  idValue := Config.idValue

/-- SINE_TABLE[i]. -/
def sineEntry (t : List Int) (i : BitVec 6) : Int := t.getD i.toNat 0

/-! Binary32 constants of 41_pattern.md R160 and R161 and of 49_host_animator.md. -/

def fZero : F32 := 0x00000000#32
def fTenth : F32 := 0x3DCCCCCD#32
def fHalf : F32 := 0x3F000000#32
def fOne : F32 := 0x3F800000#32
def fMinusOne : F32 := 0xBF800000#32
def fTwo : F32 := 0x40000000#32
def fFour : F32 := 0x40800000#32
def fEight : F32 := 0x41000000#32
def fTen : F32 := 0x41200000#32
def fSixteen : F32 := 0x41800000#32
def fThirtyTwo : F32 := 0x42000000#32
def fFifty : F32 := 0x42480000#32
def fSixtyFour : F32 := 0x42800000#32
def f128 : F32 := 0x43000000#32
def f255 : F32 := 0x437F0000#32
def f1000 : F32 := 0x447A0000#32
def fTwoPow31 : F32 := 0x4F000000#32
def fMinusTwoPow31 : F32 := 0xCF000000#32
def fPi : F32 := 0x40490FDB#32
def fMinusPi : F32 := 0xC0490FDB#32

end Sys2Proof.Machine
end

