-- ==== Sys2Proof/Machine/State.lean ====
section
/-! DEFINITION. The state of FGA-CORE and of the host that drives it, as plain data, and the state after
reset (10_state.md, 49_host_animator.md R251, 70_reset_and_hazards.md R310). -/

namespace Sys2Proof.Machine

/-- The fourteen registers of the register window (10_state.md R21). -/
inductive Reg
  | id | status | cmd | arg0 | arg1 | arg2 | result | seed | kind | freq | nscale | ctrl | width | height
  deriving DecidableEq, Repr

/-- What a host access of the right width reaches (20_memory.md R60-R62). -/
inductive Target
  /-- a register of the register window (R61) -/
  | reg (r : Reg)
  /-- canvas byte `i` (R62) -/
  | cell (i : Nat)
  deriving DecidableEq, Repr

/-- The two command errors (60_exceptions.md R281, R282). -/
inductive CmdError
  | illegalCmd
  | badCoord
  deriving DecidableEq, Repr

/-- An entry of the model-only set `faults` (60_exceptions.md R286). -/
inductive FaultRecord
  /-- unmapped, of the wrong width, or misaligned (R286 (a)) -/
  | busError (addr : BusAddr)
  /-- an access other than a STATUS read while BUSY = 1 (R286 (b)) -/
  | hazardAccess (addr : BusAddr)
  deriving DecidableEq, Repr

/-- What the host computes between its accesses (49_host_animator.md). Each takes the value of the host's
most recent read where it needs one. -/
inductive HostCalc
  /-- frame_count to 0 (R252) -/
  | startFrames
  /-- s0 = SEED + frame_count; the next access writes it to ARG0 (R254) -/
  | mutationSeed
  /-- keep the value just read as the next of r1 … r4 (R254) -/
  | keep
  /-- the writes the four decisions call for (R255-R258) -/
  | mutationWrites
  /-- write CTRL back with bit 0 toggled (R258) -/
  | toggleInvert
  /-- write KIND back as (KIND + k) mod 10 (R260 with k = 1, R261 with k = 9) -/
  | addToKind (k : Nat)
  /-- write FREQ back one step up or down, clamped (R262, R263) -/
  | stepFrequency (up : Bool)
  /-- begin a new displayed grid (R265) -/
  | clearScreen
  /-- append the byte just read to the displayed grid, as on or off (R265) -/
  | showLast
  /-- frame_count + 1, and mutate when it is due (R253) -/
  | countFrame
  deriving DecidableEq, Repr

/-- The host's named procedures (49_host_animator.md). -/
inductive Procedure
  /-- after a reset: write SEED from TIME, frame_count to 0 (R252) -/
  | startup
  /-- one drive call (R253) -/
  | tick
  /-- the periodic mutation (R254-R258) -/
  | mutate
  /-- R259 -/
  | randomize
  /-- R260 -/
  | nextPattern
  /-- R261 -/
  | previousPattern
  /-- R262 -/
  | increaseFrequency
  /-- R263 -/
  | decreaseFrequency
  /-- read the canvas as a grid of on and off (R265) -/
  | display
  /-- read KIND and FREQ for the status text (R266) -/
  | diagnostics
  deriving DecidableEq, Repr

/-- One statement of the host's program. -/
inductive HostOp
  /-- `MemRead(addr, n)` (R11) -/
  | read (addr : BusAddr) (n : Nat)
  /-- `MemWrite(addr, n, v)` (R11) -/
  | write (addr : BusAddr) (n : Nat) (v : Word)
  /-- read STATUS until bit 0 of the value read is 0 (30_encoding.md R97) -/
  | wait
  /-- a computation of the host's, no access -/
  | compute (c : HostCalc)
  /-- read canvas bytes `i`, `i + 1`, … to the end into the displayed grid (R265) -/
  | showFrom (i : Nat)
  /-- perform a procedure: its expansion takes its place -/
  | call (p : Procedure)
  /-- the platform's reset event arrives here (70_reset_and_hazards.md R310, R311) -/
  | platformReset
  deriving DecidableEq, Repr

/-- The canvas bytes written since the last reset event, as (index, byte) pairs. -/
abbrev Memory := List Host.Cell

/-- Why the machine stops. The spec names no event that stops it: a command error is a STATUS code
(60_exceptions.md R280, R283) and a bad access is an entry of `faults` (R286), and both go on. So no
constructor: a step that faults does not exist (log 16). -/
inductive Fault : Type
  deriving DecidableEq, Repr

/-- Why an instruction has no meaning. -/
inductive Refusal
  /-- raised by an arm of `exec` whose instruction has no meaning yet: safe, it proves nothing about the
  instruction. No arm raises it in this model. -/
  | notModelled (mnemonic : String)
  deriving DecidableEq, Repr

/-- The machine: the block's registers and canvas, the model-only fault set, and the host. -/
structure State where
  /-- STATUS.BUSY (R23) -/
  busy : Bool
  /-- STATUS.ERR (R24) -/
  err : Bool
  /-- STATUS.ERRCODE (R25) -/
  errCode : BitVec 4
  /-- the command latch CL (R27, R42 (a)) -/
  cl : Word
  /-- R28 -/
  arg0 : Word
  /-- R29 -/
  arg1 : Word
  /-- R30 -/
  arg2 : Word
  /-- R31 -/
  result : Word
  /-- R32 -/
  seed : Word
  /-- R33 -/
  kind : Word
  /-- R34, a binary32 pattern -/
  freq : Word
  /-- R35, a binary32 pattern -/
  nscale : Word
  /-- CTRL.INVERT (R36) -/
  invert : Bool
  /-- the parameter W, read in WIDTH (R6, R37) -/
  width : Nat
  /-- the parameter H, read in HEIGHT (R6, R38) -/
  height : Nat
  /-- the parameters of the instance beside W and H; no step changes them (R6, log 5) -/
  block : BlockParameters
  /-- the canvas bytes written since reset, by index (R39) -/
  canvas : Memory
  /-- the engine's scan position, none between its atomic steps (R42 (b), R310) -/
  scan : Option Nat
  /-- the model-only fault set (R46) -/
  faults : List FaultRecord
  /-- the model's own: how many reset events there have been (log 1) -/
  resets : Nat
  /-- the model's own: how many draw slots have been used (log 2) -/
  draws : Nat
  /-- the model's own: how many host steps may still come before the engine's step (log 3) -/
  polls : Nat
  /-- the host's frame counter (R251) -/
  frameCount : Word
  /-- the host's statements still to perform, next first (log 4) -/
  program : List HostOp
  /-- what the host's reads returned, latest first; `none` is a bus error response (R286) -/
  received : List (Option Word)
  /-- r1 … r4 of the mutation in progress (R254) -/
  kept : List Word
  /-- the grid being displayed, in index order, true for on (R265) -/
  screen : List Bool
  deriving DecidableEq, Repr

/-- The state after the first reset (70_reset_and_hazards.md R310) of a block with a `w` × `h` canvas and
parameters `b`, the host's program not yet loaded (log 4). -/
def State.resetOf (w h : Nat) (b : BlockParameters) : State where
  busy := false
  err := false
  errCode := 0#4
  cl := 0#32
  arg0 := 0#32
  arg1 := 0#32
  arg2 := 0#32
  result := 0#32
  seed := 0#32
  kind := 0#32
  freq := 0x3F800000#32
  nscale := 0x3D4CCCCD#32
  invert := false
  width := w
  height := h
  block := b
  canvas := []
  scan := none
  faults := []
  resets := 0
  draws := 0
  polls := 0
  frameCount := 0#32
  program := []
  received := []
  kept := []
  screen := []

/-- The machine right after reset, with every parameter at its default (R6, R310). -/
def State.reset : State := State.resetOf Config.defaultWidth Config.defaultHeight .default

end Sys2Proof.Machine
end

