-- ==== Sys2Proof/Machine/Flags.lean ====
section
/-! DEFINITION. STATUS: how its fields make the word the host reads, and every event that changes one of
them (10_state.md R23-R26, R45; 60_exceptions.md R283). -/

namespace Sys2Proof.Machine

/-- ERRCODE of a command error (R25, R281, R282). -/
def errCodeOf (e : CmdError) : BitVec 4 :=
  match e with
  | .illegalCmd => 0x1#4
  | .badCoord => 0x2#4

/-- The word a read of STATUS gives: BUSY in bit 0, ERR in bit 1, ERRCODE in bits 7:4, the reserved bits
0 (R23-R26). -/
def State.statusWord (s : State) : Word :=
  0#24 ++ s.errCode ++ 0#2 ++ BitVec.ofBool s.err ++ BitVec.ofBool s.busy

/-- A host write of STATUS: bit 1 = 1 clears ERR and ERRCODE, nothing else is written (R23, R24, R26). -/
def State.writeStatus (s : State) (v : Word) : State :=
  if v.getLsbD 1 then { s with err := false, errCode := 0#4 } else s

/-- The end of a command that succeeds: BUSY is cleared, ERR and ERRCODE stay (R24, R43). -/
def State.finish (s : State) : State := { s with busy := false }

/-- `raise CmdError(code)` within the engine step (60_exceptions.md R283): the block's one exception entry.
No state is saved and nothing else changes (R288). -/
def State.raiseCmdError (s : State) (e : CmdError) : State :=
  { s with err := true, errCode := errCodeOf e, busy := false }

end Sys2Proof.Machine
end

