-- ==== Sys2Proof/Machine/Ops.lean ====
section
/-! DEFINITION. Named operations over the canvas, the registers as the host sees them, the fault set and the
reset event. -/

namespace Sys2Proof.Machine

/-! ## The canvas (10_state.md R39, 70_reset_and_hazards.md R312)

An index that is not listed holds its reset draw: no byte is recorded for it. -/

/-- The byte recorded for index `i`, none where nothing has been written since reset. -/
def cellFind (i : Nat) : Memory → Option Byte
  | [] => none
  | (a, b) :: m => if a = i then some b else cellFind i m

/-- Record byte `b` at index `i`, indices staying in rising order. -/
def cellPut (i : Nat) (b : Byte) : Memory → Memory
  | [] => [(i, b)]
  | (a, c) :: m =>
    if i < a then (i, b) :: (a, c) :: m
    else if i = a then (i, b) :: m
    else (a, c) :: cellPut i b m

/-- Cells for the bytes of a list, from index `k` on. -/
def cellsFrom (k : Nat) : List Byte → Memory
  | [] => []
  | b :: bs => (k, b) :: cellsFrom (k + 1) bs

/-- The canonical form: indices strictly rising, each above `lo`. -/
def cellsAbove (lo : Nat) : Memory → Bool
  | [] => true
  | (a, _) :: m => decide (lo ≤ a) && cellsAbove (a + 1) m

/-- The canonical form of a memory. -/
def Memory.wf (m : Memory) : Bool := cellsAbove 0 m

/-- Every listed index lies inside a canvas of `n` bytes. -/
def Memory.within (n : Nat) (m : Memory) : Bool := m.all fun c => decide (c.1 < n)

/-- How many bytes the canvas has (R39). -/
def State.cells (s : State) : Nat := s.width * s.height

/-- `canvas[i]` as the engine reads it (R11, R68): the byte written last, else the reset draw (R312). -/
def State.canvasByte (s : State) (i : Nat) : Byte :=
  (cellFind i s.canvas).getD (Config.resetByte s.resets i)

/-- `canvas[i] <- b` (R11). -/
def State.setCanvasByte (s : State) (i : Nat) (b : Byte) : State :=
  { s with canvas := cellPut i b s.canvas }

/-- All canvas bytes in index order. -/
def State.canvasBytes (s : State) : List Byte := (List.range s.cells).map s.canvasByte

/-- Write the bytes of a list to canvas indices 0, 1, …; later indices keep theirs. -/
def State.setCanvasBytes (s : State) (bs : List Byte) : State :=
  { s with canvas := cellsFrom 0 bs ++ s.canvas.filter fun c => decide (bs.length ≤ c.1) }

/-! ## Registers as the host sees them (10_state.md R21-R38) -/

/-- Offset of a register in the register window (R21). -/
def regOffset (r : Reg) : BusAddr :=
  match r with
  | .id => 0x000000#24
  | .status => 0x000004#24
  | .cmd => 0x000008#24
  | .arg0 => 0x00000C#24
  | .arg1 => 0x000010#24
  | .arg2 => 0x000014#24
  | .result => 0x000018#24
  | .seed => 0x00001C#24
  | .kind => 0x000020#24
  | .freq => 0x000024#24
  | .nscale => 0x000028#24
  | .ctrl => 0x00002C#24
  | .width => 0x000030#24
  | .height => 0x000034#24

/-- All registers, in the order of their offsets (R21). -/
def allRegs : List Reg :=
  [.id, .status, .cmd, .arg0, .arg1, .arg2, .result, .seed, .kind, .freq, .nscale, .ctrl, .width, .height]

/-- The register at an offset, if one is there (R21, R61). -/
def regAt (a : BusAddr) : Option Reg := allRegs.find? fun r => regOffset r == a

/-- The value a host read of a register returns; no read has an effect (R21-R38, 20_memory.md R66). -/
def State.readReg (s : State) (r : Reg) : Word :=
  match r with
  | .id => s.block.idValue
  | .status => s.statusWord
  | .cmd => 0#32
  | .arg0 => s.arg0
  | .arg1 => s.arg1
  | .arg2 => s.arg2
  | .result => s.result
  | .seed => s.seed
  | .kind => s.kind
  | .freq => s.freq
  | .nscale => s.nscale
  | .ctrl => (BitVec.ofBool s.invert).setWidth 32
  | .width => BitVec.ofNat 32 s.width
  | .height => BitVec.ofNat 32 s.height

/-- A host write of CMD: the word is latched, BUSY is set (R27), and how many host steps may come before
the engine's is drawn (R318, log 3). -/
def State.issue (s : State) (v : Word) : State :=
  { s with cl := v, busy := true, polls := Config.freePolls s.draws, draws := s.draws + 1 }

/-- A host write of a register (20_memory.md R65): writes to ID, RESULT, WIDTH, HEIGHT and to reserved bits
are ignored. -/
def State.writeReg (s : State) (r : Reg) (v : Word) : State :=
  match r with
  | .id => s
  | .status => s.writeStatus v
  | .cmd => s.issue v
  | .arg0 => { s with arg0 := v }
  | .arg1 => { s with arg1 := v }
  | .arg2 => { s with arg2 := v }
  | .result => s
  | .seed => { s with seed := v }
  | .kind => { s with kind := v }
  | .freq => { s with freq := v }
  | .nscale => { s with nscale := v }
  | .ctrl => { s with invert := v.getLsbD 0 }
  | .width => s
  | .height => s

/-! ## The model-only fault set (10_state.md R46, 60_exceptions.md R286) -/

/-- Position of a record in the one order the set is listed in. -/
def faultKey (f : FaultRecord) : Nat :=
  match f with
  | .busError a => a.toNat
  | .hazardAccess a => 2 ^ 24 + a.toNat

/-- Add a record to a set listed in rising order without repeats. -/
def faultInsert (f : FaultRecord) : List FaultRecord → List FaultRecord
  | [] => [f]
  | g :: gs =>
    if faultKey f < faultKey g then f :: g :: gs
    else if f = g then g :: gs
    else g :: faultInsert f gs

/-- The records are listed in rising order, each at or above `lo`. -/
def faultsAbove (lo : Nat) : List FaultRecord → Bool
  | [] => true
  | g :: gs => decide (lo ≤ faultKey g) && faultsAbove (faultKey g + 1) gs

/-- Record a fault; the access itself is not performed (R286). -/
def State.recordFault (s : State) (f : FaultRecord) : State :=
  { s with faults := faultInsert f s.faults }

/-! ## The reset event (70_reset_and_hazards.md R310, R311) -/

/-- Reset takes the block's state to that of R310 with fresh canvas draws (R312), whatever was in progress
(R311); the parameters are fixed, `faults` is not emptied (R311), and the host keeps its own state. -/
def State.resetEvent (s : State) : State :=
  { State.resetOf s.width s.height s.block with
    faults := s.faults
    resets := s.resets + 1
    draws := s.draws
    frameCount := s.frameCount
    program := s.program
    received := s.received
    kept := s.kept
    screen := s.screen }

end Sys2Proof.Machine
end

