-- ==== Sys2Proof/Machine/Bus.lean ====
section
/-! DEFINITION. Host bus accesses (20_memory.md R60-R67, 70_reset_and_hazards.md R315,
60_exceptions.md R286). -/

namespace Sys2Proof.Machine

/-- First address after the register window (R60). -/
def regWindowEnd : Nat := 0x38

/-- First address of the canvas window (R60). -/
def canvasBase : Nat := 0x100000

/-- What an access of `n` bytes at `a` reaches: a register by an aligned 32-bit access (R61), a canvas byte
by an 8-bit access (R62), otherwise nothing (R61-R63). -/
def State.target (s : State) (a : BusAddr) (n : Nat) : Option Target :=
  if a.toNat < regWindowEnd then
    if n = 4 then (regAt a).map .reg else none
  else if canvasBase ≤ a.toNat ∧ a.toNat < canvasBase + s.cells ∧ n = 1 then
    some (.cell (a.toNat - canvasBase))
  else none

/-- The one access allowed while BUSY = 1: a 32-bit read of STATUS (R315). -/
def isStatusRead (a : BusAddr) (n : Nat) : Bool := a == regOffset .status && n == 4

/-- `MemRead(a, n)`: the state after, and the value returned, none for an error response. While BUSY = 1
the hazard rule comes first (log 8). -/
def State.busRead (s : State) (a : BusAddr) (n : Nat) : State × Option Word :=
  if s.busy && !isStatusRead a n then (s.recordFault (.hazardAccess a), none)
  else match s.target a n with
    | some (.reg r) => (s, some (s.readReg r))
    | some (.cell i) => (s, some (zext32 (s.canvasByte i)))
    | none => (s.recordFault (.busError a), none)

/-- `MemWrite(a, n, v)`: a canvas byte takes v[7:0] (R62). While BUSY = 1 no write is performed (R315). -/
def State.busWrite (s : State) (a : BusAddr) (n : Nat) (v : Word) : State :=
  if s.busy then s.recordFault (.hazardAccess a)
  else match s.target a n with
    | some (.reg r) => s.writeReg r v
    | some (.cell i) => s.setCanvasByte i (v.setWidth 8)
    | none => s.recordFault (.busError a)

end Sys2Proof.Machine
end

