-- ==== Sys2Proof/Machine/HostAsm.lean ====
section
/-! DEFINITION. FGA-ASM, the host's statements and their expansions (30_encoding.md R96, R97). -/

namespace Sys2Proof.Machine

/-- The statements and pseudo-instructions of FGA-ASM. -/
inductive Stmt
  | wr (r : Reg) (v : Word)
  | rd (r : Reg)
  | wrb (i : Nat) (v : Word)
  | rdb (i : Nat)
  | cmd (m : Instr)
  | wait
  | doCmd (m : Instr)
  | prng (s : Word)
  | noise (x y s : Word)
  | sine (a : Word)
  | eval (x y : Word)
  | clrerr
  | params (seed kind freq nscale inv : Word)
  deriving DecidableEq, Repr

/-- The bounds on the operands of `wrb` and `rdb` on a canvas of `n` bytes (R96). -/
def Stmt.wellFormed (n : Nat) (t : Stmt) : Bool :=
  match t with
  | .wrb i v => decide (i < n) && decide (v.toNat ≤ 255)
  | .rdb i => decide (i < n)
  | _ => true

/-- `wr <reg>, <v>` (R96). -/
def opWr (r : Reg) (v : Word) : HostOp := .write (regOffset r) 4 v

/-- `rd <reg>` (R96). -/
def opRd (r : Reg) : HostOp := .read (regOffset r) 4

/-- Bus address of canvas byte `i` (20_memory.md R60). -/
def cellAddr (i : Nat) : BusAddr := BitVec.ofNat 24 (canvasBase + i)

/-- `wrb <i>, <v>` (R96). -/
def opWrb (i : Nat) (v : Word) : HostOp := .write (cellAddr i) 1 v

/-- `rdb <i>` (R96). -/
def opRdb (i : Nat) : HostOp := .read (cellAddr i) 1

/-- `cmd <M>` (R96). -/
def opCmd (m : Instr) : HostOp := opWr .cmd (encode m)

/-- `do <M>` (R97). -/
def opsDo (m : Instr) : List HostOp := [opCmd m, .wait]

/-- The expansion of a statement into host bus accesses (R96, R97). -/
def Stmt.expand (t : Stmt) : List HostOp :=
  match t with
  | .wr r v => [opWr r v]
  | .rd r => [opRd r]
  | .wrb i v => [opWrb i v]
  | .rdb i => [opRdb i]
  | .cmd m => [opCmd m]
  | .wait => [.wait]
  | .doCmd m => opsDo m
  | .prng s => [opWr .arg0 s] ++ opsDo .prng ++ [opRd .result]
  | .noise x y s => [opWr .arg0 x, opWr .arg1 y, opWr .arg2 s] ++ opsDo .noise ++ [opRd .result]
  | .sine a => [opWr .arg0 a] ++ opsDo .sine ++ [opRd .result]
  | .eval x y => [opWr .arg0 x, opWr .arg1 y] ++ opsDo .eval ++ [opRd .result]
  | .clrerr => [opWr .status 0x00000002#32]
  | .params seed kind freq nscale inv =>
    [opWr .seed seed, opWr .kind kind, opWr .freq freq, opWr .nscale nscale, opWr .ctrl inv]

/-- A host program: its statements' accesses in order (R70, R96). -/
def assemble (ts : List Stmt) : List HostOp := ts.flatMap Stmt.expand

end Sys2Proof.Machine
end

