-- ==== Sys2Proof/Machine/Operands.lean ====
section
/-! DEFINITION. Operand assembly (30_encoding.md R91): what each command reads from the registers and how it
interprets it. -/

namespace Sys2Proof.Machine

/-- ARG0[7:0], the 8-bit angle of SINE; bits 31:8 are ignored (R91, R129). -/
def State.angleOperand (s : State) : BitVec 8 := s.arg0.extractLsb' 0 8

/-- The parameter registers, the canvas size and the block's parameters as the pattern evaluator reads them (R91, R179). -/
structure PatternParams where
  seed : Word
  kind : Word
  freq : F32
  nscale : F32
  invert : Bool
  width : Nat
  height : Nat
  block : BlockParameters
  deriving DecidableEq, Repr

/-- The parameters as they stand at the engine step (20_memory.md R76). -/
def State.patternParams (s : State) : PatternParams where
  seed := s.seed
  kind := s.kind
  freq := s.freq
  nscale := s.nscale
  invert := s.invert
  width := s.width
  height := s.height
  block := s.block

/-- ARG0 as the x coordinate of EVAL, unsigned (R91, R180). -/
def State.evalX (s : State) : Nat := s.arg0.toNat

/-- ARG1 as the y coordinate of EVAL, unsigned (R91, R180). -/
def State.evalY (s : State) : Nat := s.arg1.toNat

/-- EVAL's coordinates lie on the canvas (R180, 60_exceptions.md R282). -/
def State.evalInCanvas (s : State) : Bool := decide (s.evalX < s.width) && decide (s.evalY < s.height)

end Sys2Proof.Machine
end

