-- ==== Sys2Proof/Machine/Primitives.lean ====
section
/-! DEFINITION. The leaf functions of 40_primitives.md and the commands NOP, PRNG, NOISE and SINE. -/

namespace Sys2Proof.Machine

/-- `xorshift32` (R121). -/
def xorshift32 (s0 : Word) : Word :=
  let s1 := s0 ^^^ (s0 <<< 13)
  let s2 := s1 ^^^ (s1 >>> 17)
  s2 ^^^ (s2 <<< 5)

/-- `noise(x, y, seed)` (R124). -/
def hashNoise (x y seed : Word) : Byte :=
  let h0 := x * 374761393#32 + y * 668265263#32 + seed
  let h1 := (h0 ^^^ (h0 >>> 13)) * 1274126177#32
  ((h1 ^^^ (h1 >>> 16)) &&& 0xFF#32).setWidth 8

/-- `sine_approx(a)` with SINE_TABLE `t`: the entry the low 6 bits select (R127). -/
def sineApprox (t : List Int) (a : BitVec 8) : Int := sineEntry t (a.extractLsb' 0 6)

/-- NOP (R120). -/
def execNop (s : State) : Host.Outcome State Fault Refusal := .next s.finish

/-- PRNG (R122): ARG0 is both source and destination. -/
def execPrng (s : State) : Host.Outcome State Fault Refusal :=
  .next { s with arg0 := xorshift32 s.arg0, result := xorshift32 s.arg0 }.finish

/-- NOISE (R125): the seed is ARG2, not SEED. -/
def execNoise (s : State) : Host.Outcome State Fault Refusal :=
  .next { s with result := zext32 (hashNoise s.arg0 s.arg1 s.arg2) }.finish

/-- SINE (R129). -/
def execSine (s : State) : Host.Outcome State Fault Refusal :=
  .next { s with result := sext32 (sineApprox s.block.sineTable s.angleOperand) }.finish

end Sys2Proof.Machine
end

