-- ==== Sys2Proof/Machine/Animator.lean ====
section
/-! DEFINITION. The host's procedures (49_host_animator.md): the formulas of the mutation and of the
external commands, and each procedure as a list of bus accesses and computations (log 13). -/

namespace Sys2Proof.Machine

/-- `bits(0.5 ⊕ (cvt_f32(r mod 100) ⊘ 50.0))` (R256, R259). -/
def frequencyOf (r : Word) : F32 := fadd fHalf (fdiv (cvtF32 (r.toNat % 100 : Nat)) fFifty)

/-- `bits(cvt_f32(r mod 50) ⊘ 1000.0)` (R257). -/
def noiseScaleOf (r : Word) : F32 := fdiv (cvtF32 (r.toNat % 50 : Nat)) f1000

/-- The mutation replaces KIND: r1 mod 100 < 20 (R255). -/
def kindChanges (r : Word) : Bool := decide (r.toNat % 100 < 20)

/-- The kind a mutation chooses: (r1 div 100) mod 10 (R255). -/
def mutatedKind (r : Word) : Word := BitVec.ofNat 32 (r.toNat / 100 % 10)

/-- The mutation toggles INVERT: r4 mod 100 < 10 (R258). -/
def invertToggles (r : Word) : Bool := decide (r.toNat % 100 < 10)

/-- Lower and upper bound of a manual frequency; a NaN goes to the lower bound (R262). -/
def clampFrequency (f : F32) : F32 := if !fle fTenth f then fTenth else if flt fFour f then fFour else f

/-- One manual frequency step (R262, R263). -/
def steppedFrequency (up : Bool) (f : F32) : F32 :=
  clampFrequency (if up then fadd f fTenth else fsub f fTenth)

/-- (KIND + k) mod 10 on the integer value of KIND (R260, R261). -/
def kindPlus (kind : Word) (k : Nat) : Word := BitVec.ofNat 32 ((kind.toNat + k) % 10)

/-- Which byte value is a lit pixel (R265). -/
def displayOnValue : Byte := if Config.displayOnIs255 then 255#8 else 0#8

/-- A mutation is due after frame `n`: n mod 30 = 0; where the count has wrapped to 0 the source leaves it
open, and the free bit decides (R253, 93_implementation_defined.md M1, log 11). -/
def mutationDue (n : Word) (free : Word) : Bool :=
  if n = 0 then free.getLsbD 0 else n.toNat % 30 == 0

/-- The four decisions as register writes (R255-R258); INVERT is read before it is toggled. -/
def mutationOps (r1 r2 r3 r4 : Word) : List HostOp :=
  (if kindChanges r1 then [opWr .kind (mutatedKind r1)] else [])
    ++ [opWr .freq (frequencyOf r2), opWr .nscale (noiseScaleOf r3)]
    ++ (if invertToggles r4 then [opRd .ctrl, .compute .toggleInvert] else [])

/-- One draw of the mutation on the block (R254). -/
def drawOps : List HostOp := opsDo .prng ++ [opRd .result, .compute .keep]

/-- The expansion of a procedure; `time` is what a read of the current time gives it (R251). -/
def expandProcedure (p : Procedure) (time : Word) : List HostOp :=
  match p with
  | .startup => [opWr .seed time, .compute .startFrames]
  | .tick => opsDo .render ++ [.call .display, .compute .countFrame]
  | .mutate =>
    [opRd .seed, .compute .mutationSeed] ++ drawOps ++ drawOps ++ drawOps ++ drawOps ++ [.compute .mutationWrites]
  | .randomize => [opWr .seed time, opWr .kind (kindPlus time 0), opWr .freq (frequencyOf time)]
  | .nextPattern => [opRd .kind, .compute (.addToKind 1)]
  | .previousPattern => [opRd .kind, .compute (.addToKind 9)]
  | .increaseFrequency => [opRd .freq, .compute (.stepFrequency true)]
  | .decreaseFrequency => [opRd .freq, .compute (.stepFrequency false)]
  | .display => [.compute .clearScreen, .showFrom 0]
  | .diagnostics => [opRd .kind, opRd .freq]

/-- Put statements in front of the rest of the host's program. -/
def State.prepend (s : State) (ops : List HostOp) : State := { s with program := ops ++ s.program }

/-- The value of the host's most recent read; `free` where that read got an error response (log 10). -/
def State.lastRead (s : State) (free : Word) : Word :=
  match s.received with
  | some v :: _ => v
  | _ => free

/-- A computation of the host's, with the free word of its draw slot. -/
def hostCalc (c : HostCalc) (free : Word) (s : State) : State :=
  let v := s.lastRead free
  match c with
  | .startFrames => { s with frameCount := 0#32 }
  | .mutationSeed => { s with kept := [] }.prepend [opWr .arg0 (v + s.frameCount)]
  | .keep => { s with kept := s.kept ++ [v] }
  | .mutationWrites =>
    s.prepend (mutationOps (s.kept.getD 0 free) (s.kept.getD 1 free) (s.kept.getD 2 free) (s.kept.getD 3 free))
  | .toggleInvert => s.prepend [opWr .ctrl (v ^^^ 1#32)]
  | .addToKind k => s.prepend [opWr .kind (kindPlus v k)]
  | .stepFrequency up => s.prepend [opWr .freq (steppedFrequency up v)]
  | .clearScreen => { s with screen := [] }
  | .showLast => { s with screen := s.screen ++ [v.setWidth 8 == displayOnValue] }
  | .countFrame =>
    let s' := { s with frameCount := s.frameCount + 1#32 }
    if mutationDue s'.frameCount free then s'.prepend [.call .mutate] else s'

/-- Use up one draw slot. -/
def State.nextSlot (s : State) : State := { s with draws := s.draws + 1 }

/-- One statement of the host's program. -/
def hostOp (op : HostOp) (s : State) : State :=
  match op with
  | .read a n =>
    let r := s.busRead a n
    { r.1 with received := r.2 :: s.received }
  | .write a n v => s.busWrite a n v
  | .wait =>
    let s' := { s with received := some s.statusWord :: s.received }
    if s.busy then s'.prepend [.wait] else s'
  | .compute c => (hostCalc c (Config.freeWord s.draws) s).nextSlot
  | .showFrom i =>
    if i < s.cells then s.prepend [opRdb i, .compute .showLast, .showFrom (i + 1)] else s
  | .call p => (s.prepend (expandProcedure p (Config.freeWord s.draws))).nextSlot
  | .platformReset => s.resetEvent

/-- A host step: the next statement of its program, in order (20_memory.md R70); with none left the host
does nothing and the block keeps all state (60_exceptions.md R291). -/
def hostStep (s : State) : State :=
  match s.program with
  | [] => s
  | op :: rest => hostOp op { s with program := rest, polls := s.polls - 1 }

end Sys2Proof.Machine
end

