-- ==== Sys2Proof/Machine/Atan2.lean ====
section
/-! DEFINITION. The parameter ATAN2_F32 (41_pattern.md R178). Its default is the binary32 value nearest the
exact atan2. The exact angle is enclosed between two rationals by alternating partial sums of the arctangent
series, and both ends are rounded; where they round alike, that is the nearest value (log 6). -/

namespace Sys2Proof.Machine

/-- `n` terms of the series `1/(2k+1) − t²/(2k+3) + t⁴/(2k+5) − …`. -/
def atanTail (t2 : Rat) : Nat → Nat → Rat
  | _, 0 => 0
  | k, n + 1 => 1 / ((2 * k + 1 : Nat) : Rat) - t2 * atanTail t2 (k + 1) n

/-- The partial sum of `n` terms of arctan t for 0 ≤ t ≤ 1: below it for even n, above it for odd n. -/
def atanSum (t : Rat) (n : Nat) : Rat := t * atanTail (t * t) 0 n

/-- An enclosure of a real number by rationals. -/
structure Enclosure where
  lo : Rat
  hi : Rat
  deriving DecidableEq, Repr

/-- arctan t for 0 ≤ t ≤ 1/2, from 2n and 2n + 1 terms. -/
def atanSmall (n : Nat) (t : Rat) : Enclosure := ⟨atanSum t (2 * n), atanSum t (2 * n + 1)⟩

/-- `a·x − b·y` for whole a, b. -/
def encloseDiff (a : Nat) (x : Enclosure) (b : Nat) (y : Enclosure) : Enclosure :=
  ⟨a * x.lo - b * y.hi, a * x.hi - b * y.lo⟩

/-- π/4 = 4·arctan(1/5) − arctan(1/239). -/
def quarterPi (n : Nat) : Enclosure := encloseDiff 4 (atanSmall n (1 / 5)) 1 (atanSmall n (1 / 239))

/-- arctan t for 0 ≤ t ≤ 1: past 1/2 it is π/4 − arctan((1 − t)/(1 + t)). -/
def atanUnit (n : Nat) (t : Rat) : Enclosure :=
  if 2 * t ≤ 1 then atanSmall n t
  else encloseDiff 1 (quarterPi n) 1 (atanSmall n ((1 - t) / (1 + t)))

/-- The angle in [0, π/2] of the point (x, y), both ≥ 0 and not both 0. -/
def firstQuadrant (n : Nat) (y x : Nat) : Enclosure :=
  if y ≤ x then atanUnit n ((y : Rat) / (x : Rat))
  else encloseDiff 2 (quarterPi n) 1 (atanUnit n ((x : Rat) / (y : Rat)))

/-- The angle in [0, π] of the point (± x, y). -/
def upperAngle (n : Nat) (xNeg : Bool) (y x : Nat) : Enclosure :=
  if xNeg then encloseDiff 4 (quarterPi n) 1 (firstQuadrant n y x) else firstQuadrant n y x

/-- The pattern magnitude nearest to a rational ≥ 0. -/
def roundMagRat (q : Rat) : Nat := roundMag (q.num.toNat * unitOne) q.den

/-- The pattern magnitude both ends of the enclosure round to, if they round alike. -/
def enclosureMag (e : Enclosure) : Option Nat :=
  if roundMagRat e.lo = roundMagRat e.hi then some (roundMagRat e.lo) else none

/-- The nearest pattern magnitude to the angle of (± x, y): 2n terms of the series for the first n of
`tries` that decides it; past the last, the lower end of its enclosure (log 6). -/
def angleMag (xNeg : Bool) (y x : Nat) : List Nat → Nat
  | [] => 0
  | n :: rest =>
    match enclosureMag (upperAngle n xNeg y x) with
    | some m => m
    | none => if rest = [] then roundMagRat (upperAngle n xNeg y x).lo else angleMag xNeg y x rest

/-- How many terms are tried: 2·16, then 2·40, then 2·340. -/
def atanTries : List Nat := [16, 40, 340]

/-- The binary32 value of [−f32(π), f32(π)] a free word stands for; every value of the range is reached (R178). -/
def boundAngle (w : Word) : F32 := fPack w.msb (w.toNat % 2 ^ 31 % (fMag fPi + 1))

/-- The default ATAN2_F32 (R178): the binary32 value nearest the exact angle, with the sign of y; ±f32(π) for
y = ±0 with x < 0, and ±0 for y = ±0 with x = +0. Where R178 states only the range, a free value in it (log 7). -/
def atan2Nearest (y x : F32) : F32 :=
  if fIsZero y && flt x fZero then fPack (fSign y) (fMag fPi)
  else if !fIsFinite y || !fIsFinite x then boundAngle (Config.atan2Open y x)
  else if fIsZero y && fIsZero x then (if fSign x then boundAngle (Config.atan2Open y x) else y)
  else fPack (fSign y) (angleMag (fSign x) (fAbsUnits y) (fAbsUnits x) atanTries)

/-- `ATAN2_F32(y, x)` for the parameter the block was built with (R6, R178). -/
def atan2F32 (p : Atan2Parameter) (y x : F32) : F32 :=
  match p with
  | .nearest => atan2Nearest y x
  | .library => boundAngle (Config.atan2Library y x)
  | .table entries =>
    match entries.find? fun e => e.y == y && e.x == x with
    | some e => e.angle
    | none => atan2Nearest y x

end Sys2Proof.Machine
end

