-- ==== Sys2Proof/Machine/Pattern.lean ====
section
/-! DEFINITION. The pattern evaluator and the commands EVAL and FILL (41_pattern.md). A draw of R161 is the
free word of its own slot: one evaluation owns five consecutive slots, so the draws of two pixels are
independent (R179, log 2). -/

namespace Sys2Proof.Machine

/-- `draw {0 … 63}` of slot `k` (R161). -/
def angleDraw (k : Nat) : BitVec 6 := (Config.freeWord k).extractLsb' 0 6

/-- `draw {−2^31 … 2^31−1}` of slot `k` (R161). -/
def s32Draw (k : Nat) : Int := (Config.freeWord k).toInt

/-- `trunc_angle(v)` with its draw in slot `k` (R161). -/
def truncAngle (v : F32) (k : Nat) : BitVec 6 :=
  if fIsFinite v && flt fMinusOne v && flt v fTwoPow31 then BitVec.ofInt 6 (fTrunc v) else angleDraw k

/-- `trunc_s32(v)` with its draw in slot `k` (R161). -/
def truncS32 (v : F32) (k : Nat) : Int :=
  if fIsFinite v && fle fMinusTwoPow31 v && flt v fTwoPow31 then fTrunc v else s32Draw k

/-- `draw {0 … 255}` of slot `k`, for a value that is no number (log 24). -/
def byteDraw (k : Nat) : Byte := (Config.freeWord k).extractLsb' 0 8

/-- The ten pattern kinds (R164-R173). -/
inductive PatternKind
  | horizontal | vertical | radial | diagonal | sine | cosine | interference | checkerboard | noise | spiral
  deriving DecidableEq, Repr

/-- Kind selection: a KIND above 9 is kind 0 (R163). -/
def patternKind (kind : Word) : PatternKind :=
  match kind.toNat with
  | 1 => .vertical
  | 2 => .radial
  | 3 => .diagonal
  | 4 => .sine
  | 5 => .cosine
  | 6 => .interference
  | 7 => .checkerboard
  | 8 => .noise
  | 9 => .spiral
  | _ => .horizontal

/-- Step 1: a pixel coordinate over the canvas size (R162). -/
def normalise (c size : Nat) : F32 := fdiv (cvtF32 c) (cvtF32 size)

/-- The scaled sum of a table value, `cvt_f32(t + 64) ⊘ 128.0` (R168-R170). -/
def fromAmplitude (t : Int) : F32 := fdiv (cvtF32 (t + 64)) f128

/-- The distance from the centre (R166, R173). -/
def centreDistance (dx dy : F32) : F32 := fsqrt (fadd (fmul dx dx) (fmul dy dy))

/-- Kind 2 (R166). -/
def rawRadial (b : BlockParameters) (nx ny : F32) : F32 :=
  fmul (centreDistance (fsub nx fHalf) (fsub ny fHalf)) b.radialScale

/-- Kind 3 (R167). -/
def rawDiagonal (nx ny : F32) : F32 := fdiv (fadd nx ny) fTwo

/-- Kind 4, its draw in slot `d` (R168). -/
def rawSine (b : BlockParameters) (nx f : F32) (d : Nat) : F32 :=
  fromAmplitude (sineEntry b.sineTable (truncAngle (fmul (fmul nx fSixtyFour) f) d))

/-- Kind 5, its draw in slot `d` (R169). -/
def rawCosine (b : BlockParameters) (ny f : F32) (d : Nat) : F32 :=
  fromAmplitude (sineEntry b.sineTable (truncAngle (fadd (fmul (fmul ny fSixtyFour) f) fSixteen) d))

/-- Kind 6, its draws in slots `d` and `d + 1` (R170). -/
def rawInterference (b : BlockParameters) (nx ny f : F32) (d : Nat) : F32 :=
  let ax := truncAngle (fmul (fmul nx fThirtyTwo) f) d
  let ay := truncAngle (fmul (fmul ny fThirtyTwo) f) (d + 1)
  fromAmplitude (tdiv (sineEntry b.sineTable ax * sineEntry b.sineTable ay) 64)

/-- Kind 7, its draws in slots `d` and `d + 1` (R171). -/
def rawCheckerboard (nx ny f : F32) (d : Nat) : F32 :=
  let cx := truncS32 (fmul (fmul nx fEight) f) d
  let cy := truncS32 (fmul (fmul ny fEight) f) (d + 1)
  if (word cx ^^^ word cy).getLsbD 0 then fOne else fZero

/-- `cvt_f32(n) ⊘ 255.0` of a noise byte (R172, R174). -/
def noiseScalar (n : Byte) : F32 := fdiv (cvtF32 (byteInt n)) f255

/-- Kind 8 (R172). -/
def rawNoise (x y : Nat) (seed : Word) : F32 := noiseScalar (hashNoise (word x) (word y) seed)

/-- Kind 9 (R173). -/
def rawSpiral (b : BlockParameters) (nx ny : F32) : F32 :=
  let dx := fsub nx fHalf
  let dy := fsub ny fHalf
  fdiv (ffmod (fadd (atan2F32 b.atan2 dy dx) (fmul (centreDistance dx dy) fTen)) b.twoPi) b.twoPi

/-- Step 2: the raw value of the selected kind at pixel (x, y) (R163-R173). -/
def rawValue (p : PatternParams) (d x y : Nat) : F32 :=
  let nx := normalise x p.width
  let ny := normalise y p.height
  match patternKind p.kind with
  | .horizontal => nx
  | .vertical => ny
  | .radial => rawRadial p.block nx ny
  | .diagonal => rawDiagonal nx ny
  | .sine => rawSine p.block nx p.freq d
  | .cosine => rawCosine p.block ny p.freq d
  | .interference => rawInterference p.block nx ny p.freq d
  | .checkerboard => rawCheckerboard nx ny p.freq d
  | .noise => rawNoise x y p.seed
  | .spiral => rawSpiral p.block nx ny

/-- The noise byte of the overlay, its draws in slots `d + 2` and `d + 3` (R174). -/
def overlayNoise (p : PatternParams) (d x y : Nat) : Byte :=
  let ix := truncS32 (fmul (cvtF32 x) p.nscale) (d + 2)
  let iy := truncS32 (fmul (cvtF32 y) p.nscale) (d + 3)
  hashNoise (word ix) (word iy) p.seed

/-- `v·BLEND_A + (n/255)·BLEND_B` (R174). -/
def blend (b : BlockParameters) (v : F32) (n : Byte) : F32 :=
  fadd (fmul v b.blendA) (fmul (noiseScalar n) b.blendB)

/-- Step 3: the noise overlay, applied exactly when NSCALE > 0 (R174). -/
def overlay (p : PatternParams) (d x y : Nat) (v : F32) : F32 :=
  if flt fZero p.nscale then blend p.block v (overlayNoise p d x y) else v

/-- Step 4a (R175). -/
def clampUnit (v : F32) : F32 := if flt v fZero then fZero else if flt fOne v then fOne else v

/-- Step 4b (R176). -/
def invertUnit (inv : Bool) (v : F32) : F32 := if inv then fsub fOne v else v

/-- Step 5: `floor(v ⊗ 255.0)` (R177); where `v` is no number, which the default parameters never give (R175), the
byte is the draw of slot `k` (log 24). -/
def quantise (v : F32) (k : Nat) : Byte :=
  if fIsFinite (fmul v f255) then intByte (fFloor (fmul v f255)) else byteDraw k

/-- `evaluate(x, y)` with draw slots `d` … `d + 4` (R179). -/
def evaluate (p : PatternParams) (d x y : Nat) : Byte :=
  quantise (invertUnit p.invert (clampUnit (overlay p d x y (rawValue p d x y)))) (d + 4)

/-- How many draw slots one evaluation owns. -/
def slotsPerPixel : Nat := 5

/-- The intensities of all pixels in index order, pixel i at (i mod W, i div W) (R13, R181). -/
def fillBytes (p : PatternParams) (d : Nat) : List Byte :=
  (List.range (p.width * p.height)).map fun i =>
    evaluate p (d + slotsPerPixel * i) (i % p.width) (i / p.width)

/-- The body of FILL (R181). -/
def State.fillCanvas (s : State) : State :=
  { s with draws := s.draws + slotsPerPixel * s.cells }.setCanvasBytes (fillBytes s.patternParams s.draws)

/-- EVAL (R180): BAD_COORD outside the canvas, else RESULT takes the intensity. -/
def execEval (s : State) : Host.Outcome State Fault Refusal :=
  if s.evalInCanvas then
    .next { s with
      result := zext32 (evaluate s.patternParams s.draws s.evalX s.evalY)
      draws := s.draws + slotsPerPixel }.finish
  else .next (s.raiseCmdError .badCoord)

/-- FILL (R181). -/
def execFill (s : State) : Host.Outcome State Fault Refusal := .next s.fillCanvas.finish

end Sys2Proof.Machine
end

