-- ==== Sys2Proof/Machine/Dither.lean ====
section
/-! DEFINITION. The ditherer and the commands DITHER and RENDER (42_dither.md). -/

namespace Sys2Proof.Machine

/-- The threshold (R220). -/
def ditherNew (old : Byte) : Byte := if 127 < old.toNat then 255#8 else 0#8

/-- The error `old − new` (R221). -/
def ditherErr (old : Byte) : Int := byteInt old - byteInt (ditherNew old)

/-- A neighbour's byte after it received the share `err·w/16` (R222). -/
def ditherShare (b : Byte) (err w : Int) : Byte := intByte (clamp (byteInt b + tdiv (err * w) 16) 0 255)

/-- Send the share of weight `w` to the neighbour (x + dx, y + dy), if it lies inside the canvas
(R222, R223). -/
def ditherSend (wd ht : Nat) (err : Int) (x y : Nat) (c : List Byte) (n : Int × Int × Int) : List Byte :=
  let nx : Int := x + n.1
  let ny : Int := y + n.2.1
  if 0 ≤ nx ∧ nx < wd ∧ ny < ht then
    let j := (ny * wd + nx).toNat
    c.set j (ditherShare (c.getD j 0#8) err n.2.2)
  else c

/-- The four neighbours with their weights: (dx, dy, w) (R222). -/
def ditherWeights : List (Int × Int × Int) := [(1, 0, 7), (-1, 1, 3), (0, 1, 5), (1, 1, 1)]

/-- Process the pixel of index `i` = y·W + x: threshold it and distribute its error (R224). -/
def ditherPixel (wd ht : Nat) (c : List Byte) (i : Nat) : List Byte :=
  let old := c.getD i 0#8
  ditherWeights.foldl (ditherSend wd ht (ditherErr old) (i % wd) (i / wd)) (c.set i (ditherNew old))

/-- `dither()` on the bytes of a W×H canvas, in scan order (R224). -/
def ditherBytes (wd ht : Nat) (c : List Byte) : List Byte :=
  (List.range (wd * ht)).foldl (ditherPixel wd ht) c

/-- `dither()` on the canvas (R224). -/
def State.ditherCanvas (s : State) : State :=
  s.setCanvasBytes (ditherBytes s.width s.height s.canvasBytes)

/-- DITHER (R225). -/
def execDither (s : State) : Host.Outcome State Fault Refusal := .next s.ditherCanvas.finish

/-- RENDER (R226): the body of FILL, then `dither()`, in one step. -/
def execRender (s : State) : Host.Outcome State Fault Refusal := .next s.fillCanvas.ditherCanvas.finish

end Sys2Proof.Machine
end

