-- ==== Sys2Proof/Machine/Dispatch.lean ====
section
/-! DEFINITION. One arm per command, each a direct call of its meaning. -/

namespace Sys2Proof.Machine

def exec (i : Instr) (s : State) : Host.Outcome State Fault Refusal :=
  match i with
  | .nop => Sys2Proof.Machine.execNop s
  | .prng => Sys2Proof.Machine.execPrng s
  | .noise => Sys2Proof.Machine.execNoise s
  | .sine => Sys2Proof.Machine.execSine s
  | .eval => Sys2Proof.Machine.execEval s
  | .fill => Sys2Proof.Machine.execFill s
  | .dither => Sys2Proof.Machine.execDither s
  | .render => Sys2Proof.Machine.execRender s

end Sys2Proof.Machine
end

