-- ==== Sys2Proof/Machine/Engine.lean ====
section
/-! DEFINITION. The command engine (10_state.md R20, R43): when it has a step, and what the step does. -/

namespace Sys2Proof.Machine

/-- The engine moves next: a command is pending (R43) and no host step comes before it any more, because
its draw is used up or the host has nothing left to do (R318, log 3). DESIGN CHOICE (log 23): the draw may be 0, so a
host access right after a CMD write with no `wait` (70_reset_and_hazards.md R317, 49_host_animator.md R250) is a
HazardAccess only where the engine has not stepped yet. -/
def State.engineTurn (s : State) : Bool := s.busy && (s.polls == 0 || s.program.isEmpty)

/-- The engine step (R43): decode the latch (30_encoding.md R94) and perform the whole command; a word that
is no command raises ILLEGAL_CMD (60_exceptions.md R281). -/
def engineStep (s : State) : Host.Outcome State Fault Refusal :=
  match decode s.cl with
  | .ok i => exec i s
  | .reject _ => .next (s.raiseCmdError .illegalCmd)

end Sys2Proof.Machine
end

