-- ==== Sys2Proof/Machine/Step.lean ====
section
/-! DEFINITION. One step of the machine: the agent whose turn it is moves (10_state.md R20, R43). -/

namespace Sys2Proof.Machine

/-- One step: the engine's when it is the engine's turn, else the host's. -/
def step (s : State) : Host.Outcome State Fault Refusal :=
  if s.engineTurn then engineStep s else .next (hostStep s)

/-- The command word of a table row placed where the next step fetches its instruction: in the command
latch, with the command pending and the engine to move (10_state.md R27, R43; log 4). -/
def State.withFetchWord (s : State) (nbits w : Nat) : State :=
  { s with cl := tableWord nbits w, busy := true, polls := 0 }

end Sys2Proof.Machine
end

