-- ==== Sys2Proof/WellFormed.lean ====
section
/-! DEFINITION. What must hold of a command and of an instance's parameters. -/

namespace Sys2Proof

/-- A command word has no operand field (30_encoding.md R90, R91), so every command is well-formed. -/
def Instr.wellFormed (i : Instr) : Bool :=
  match i with
  | .nop | .prng | .noise | .sine | .eval | .fill | .dither | .render => true

/-- The limits on the canvas of an instance: 1 ≤ W, 1 ≤ H, W·H ≤ 2^20 (00_scope.md R6). -/
def dimsOk (w h : Nat) : Bool :=
  decide (1 ≤ w) && decide (1 ≤ h) && decide (w * h ≤ Config.maxCells)

namespace Machine

/-- The limits on SINE_TABLE: 64 entries, each in −64 … 64 (10_state.md R41). -/
def sineTableOk (t : List Int) : Bool := t.length == 64 && t.all fun e => decide (-64 ≤ e) && decide (e ≤ 64)

/-- A binary32 value in [−f32(π), f32(π)] (41_pattern.md R178). -/
def angleOk (v : F32) : Bool := fle fMinusPi v && fle v fPi

/-- The limits on ATAN2_F32: a value read from a table lies in the range of R178. -/
def Atan2Parameter.ok (p : Atan2Parameter) : Bool :=
  match p with
  | .nearest | .library => true
  | .table entries => entries.all fun e => angleOk e.angle

/-- The limits on the parameters of an instance other than W and H (R6, R41, R178). -/
def BlockParameters.ok (b : BlockParameters) : Bool := sineTableOk b.sineTable && b.atan2.ok

end Machine

end Sys2Proof
end

