-- ==== Sys2Proof/Safety.lean ====
section
/-! DEFINITION. What holds of every state the machine can be in, and what a safe run is. -/

namespace Sys2Proof.Machine

/-- ERR and ERRCODE belong together: no error and code 0, or an error and a code the block produces
(10_state.md R24, R25). -/
def errConsistent (s : State) : Bool :=
  (!s.err && s.errCode == 0#4) || (s.err && (s.errCode == errCodeOf .illegalCmd || s.errCode == errCodeOf .badCoord))

/-- The machine's invariant: a canvas within the limits (00_scope.md R6), its memory in canonical form and
inside the canvas (R39), the fault set listed once each (R46), STATUS consistent (R24, R25), and no scan in
progress between steps (R42, R43); the instance's other parameters are legal (R6, R41, R178). -/
abbrev State.Inv (s : State) : Prop :=
  dimsOk s.width s.height = true ∧ Memory.wf s.canvas = true ∧ Memory.within s.cells s.canvas = true ∧
    faultsAbove 0 s.faults = true ∧ errConsistent s = true ∧ s.scan = none ∧ s.block.ok = true

/-- Two states with the same block registers, latch, parameters and canvas: they may differ in the model-only fault set,
in the free-value counters and in the host's own state. -/
abbrev State.SameBlock (s t : State) : Prop :=
  t.busy = s.busy ∧ t.err = s.err ∧ t.errCode = s.errCode ∧ t.cl = s.cl ∧ t.arg0 = s.arg0 ∧ t.arg1 = s.arg1 ∧
    t.arg2 = s.arg2 ∧ t.result = s.result ∧ t.seed = s.seed ∧ t.kind = s.kind ∧ t.freq = s.freq ∧
    t.nscale = s.nscale ∧ t.invert = s.invert ∧ t.width = s.width ∧ t.height = s.height ∧
    t.block = s.block ∧ t.canvas = s.canvas ∧ t.scan = s.scan ∧ t.resets = s.resets

/-- Two states with the same host: its frame counter, program, read values, kept draws and grid. -/
abbrev State.SameHost (s t : State) : Prop :=
  t.frameCount = s.frameCount ∧ t.program = s.program ∧ t.received = s.received ∧ t.kept = s.kept ∧
    t.screen = s.screen

/-- A run so far without a host access the block does not define (60_exceptions.md R286): the host has kept
the duties of 49_host_animator.md R250 and used the map of 20_memory.md. -/
abbrev State.FaultFree (s : State) : Prop := s.faults = []

end Sys2Proof.Machine
end

