-- ==== Sys2Proof/Certificates/Slice0/Obligations.lean ====
section
/-! DEFINITION. The statements about this model, for the provers. Each docstring names the rule of spec/ the
statement formalises, or says that it is derived or rests on a choice of the model's and names the log entry. -/

open Sys2Proof Sys2Proof.Machine

namespace Sys2Proof.Claims

/-! ## Words of the spec that the statements use, transcribed apart from the model -/

/-- The default table of 40_primitives.md R128, row by row. -/
def sineRows : List Int :=
  [0, 6, 12, 19, 24, 30, 36, 41, 45, 49, 53, 56, 59, 61, 63, 64] ++
  [64, 64, 63, 61, 59, 56, 53, 49, 45, 41, 36, 30, 24, 19, 12, 6] ++
  [0, -6, -12, -19, -24, -30, -36, -41, -45, -49, -53, -56, -59, -61, -63, -64] ++
  [-64, -64, -63, -61, -59, -56, -53, -49, -45, -41, -36, -30, -24, -19, 0, 0]

/-- One pixel of `dither()` of 42_dither.md R224 on a canvas of integers, written from its pseudocode. -/
def ditherCell (w h x y : Nat) (c : Nat → Int) : Nat → Int :=
  let i := y * w + x
  let old := c i
  let new : Int := if old > 127 then 255 else 0
  let err := old - new
  let send (c : Nat → Int) (dx dy wt : Int) : Nat → Int :=
    if 0 ≤ (x : Int) + dx ∧ (x : Int) + dx < w ∧ (y : Int) + dy < h then
      let j := (((y : Int) + dy) * w + ((x : Int) + dx)).toNat
      Function.update c j (max 0 (min 255 (c j + Int.tdiv (err * wt) 16)))
    else c
  send (send (send (send (Function.update c i new) 1 0 7) (-1) 1 3) 0 1 5) 1 1 1

/-- `dither()` of R224: for y in 0 … H−1, for x in 0 … W−1. -/
def ditherLoops (w h : Nat) (c : Nat → Int) : Nat → Int :=
  (List.range h).foldl (fun c y => (List.range w).foldl (fun c x => ditherCell w h x y c) c) c

/-- PRNG performed `n` times with ARG0 not written between (R122). -/
def prngTimes : Nat → State → Host.Outcome State Fault Refusal
  | 0, s => .next s
  | n + 1, s =>
    match exec .prng s with
    | .next t => prngTimes n t
    | .fault f => .fault f
    | .refused r => .refused r

/-- The value of a finite binary32 pattern as a real number. -/
noncomputable def real (a : F32) : ℝ := (fUnits a : ℝ) / (unitOne : ℝ)

/-- `r` is a finite pattern, no finite pattern's value is nearer to `v`, and where another value is as near `r` is
the one with the even significand: round to nearest even (R7). -/
def IsNearest (r : F32) (v : ℝ) : Prop :=
  fIsFinite r = true ∧ ∀ b : F32, fIsFinite b = true →
    |real r - v| ≤ |real b - v| ∧ (|real r - v| = |real b - v| → real b ≠ real r → fMag r % 2 = 0)

/-- `r` is the binary32 result whose exact value is `v`: the nearest value below the overflow threshold, else the
infinity on v's side (R7, R10). -/
def RoundsTo (r : F32) (v : ℝ) : Prop :=
  (|v| < 2 ^ 128 - 2 ^ 103 → IsNearest r v) ∧ (2 ^ 128 - 2 ^ 103 ≤ v → r = 0x7F800000#32) ∧
    (v ≤ -(2 ^ 128 - 2 ^ 103) → r = 0xFF800000#32)

/-- The infinity, or the zero, with this sign. -/
def signedInf (neg : Bool) : F32 := if neg then 0xFF800000#32 else 0x7F800000#32
def signedZero (neg : Bool) : F32 := if neg then 0x80000000#32 else 0#32

/-- The exact angle of the point (± x, y), in [0, π]. -/
noncomputable def exactAngle (xNeg : Bool) (y x : Nat) : ℝ :=
  Complex.arg ⟨if xNeg then -(x : ℝ) else (x : ℝ), (y : ℝ)⟩

end Sys2Proof.Claims

/-! ## Reset -/

/-- 70_reset_and_hazards.md R310 and R311: the reset event gives every register the value of R310's table,
whatever state it arrives in (a command in progress included); each canvas byte is its draw, the scan position
is none, the instance's parameters (by default the table of R128 and the ID of R22) stay, and the model's fault set is
not emptied. -/
def Obligations.ResetEventGivesTheDocumentedState : Prop :=
  ∀ s : State,
    s.resetEvent.readReg .id = s.block.idValue ∧ s.resetEvent.readReg .status = 0#32 ∧
    s.resetEvent.busy = false ∧ s.resetEvent.err = false ∧ s.resetEvent.errCode = 0#4 ∧
    s.resetEvent.cl = 0#32 ∧ s.resetEvent.readReg .cmd = 0#32 ∧
    s.resetEvent.readReg .arg0 = 0#32 ∧ s.resetEvent.readReg .arg1 = 0#32 ∧ s.resetEvent.readReg .arg2 = 0#32 ∧
    s.resetEvent.readReg .result = 0#32 ∧ s.resetEvent.readReg .seed = 0#32 ∧
    s.resetEvent.readReg .kind = 0#32 ∧ s.resetEvent.readReg .freq = 0x3F800000#32 ∧
    s.resetEvent.readReg .nscale = 0x3D4CCCCD#32 ∧ s.resetEvent.readReg .ctrl = 0#32 ∧
    s.resetEvent.readReg .width = BitVec.ofNat 32 s.width ∧
    s.resetEvent.readReg .height = BitVec.ofNat 32 s.height ∧
    s.resetEvent.cells = s.cells ∧
    (∀ i, s.resetEvent.canvasByte i = Config.resetByte (s.resets + 1) i) ∧
    s.resetEvent.block = s.block ∧ BlockParameters.default.sineTable = Sys2Proof.Claims.sineRows ∧
    BlockParameters.default.idValue = 0x46474131#32 ∧ State.reset.block = BlockParameters.default ∧
    s.resetEvent.scan = none ∧ s.resetEvent.faults = s.faults

/-- 70_reset_and_hazards.md R312: reset leaves every byte unwritten; until a byte is written, every host read of it
returns its one draw, and a write of another byte does not change that. -/
def Obligations.UnwrittenByteReadsItsResetDraw : Prop :=
  (∀ (s : State) (i : Nat), cellFind i s.resetEvent.canvas = none) ∧
  ∀ (s : State) (i : Nat), s.busy = false → i < s.cells → s.cells ≤ 2 ^ 20 → cellFind i s.canvas = none →
    s.busRead (cellAddr i) 1 = (s, some (zext32 (Config.resetByte s.resets i))) ∧
    ∀ (j : Nat) (b : Byte), j ≠ i →
      (s.setCanvasByte j b).busRead (cellAddr i) 1 =
        (s.setCanvasByte j b, some (zext32 (Config.resetByte s.resets i)))

/-- The machine's invariant holds right after reset, for every canvas and parameters within the limits (R6, R41,
R178). -/
def Obligations.InvariantHoldsAtReset : Prop :=
  State.reset.Inv ∧ ∀ (w h : Nat) (b : BlockParameters), dimsOk w h = true → b.ok = true →
    (State.resetOf w h b).Inv

/-- Every step keeps the invariant: the canvas limits (R6), the canonical memory inside the canvas (R39), the
fault set (R46), STATUS (R24, R25), the scan position (R42) and the legal parameters (R41, R178). -/
def Obligations.EveryStepKeepsTheInvariant : Prop :=
  ∀ s t : State, s.Inv → step s = .next t → t.Inv

/-! ## Encoding -/

/-- 30_encoding.md R92: the eight command words, each matched against the whole word, and their opcodes. -/
def Obligations.OpcodeMapWordsDecode : Prop :=
  decode 0x00000000#32 = .ok .nop ∧ decode 0x00000001#32 = .ok .prng ∧ decode 0x00000002#32 = .ok .noise ∧
  decode 0x00000003#32 = .ok .sine ∧ decode 0x00000004#32 = .ok .eval ∧ decode 0x00000005#32 = .ok .fill ∧
  decode 0x00000006#32 = .ok .dither ∧ decode 0x00000007#32 = .ok .render ∧
  opcodeOf .nop = 0x00#8 ∧ opcodeOf .prng = 0x01#8 ∧ opcodeOf .noise = 0x02#8 ∧ opcodeOf .sine = 0x03#8 ∧
  opcodeOf .eval = 0x04#8 ∧ opcodeOf .fill = 0x05#8 ∧ opcodeOf .dither = 0x06#8 ∧ opcodeOf .render = 0x07#8

/-- Decode and encode agree on all bytes: a byte list decodes to a command exactly when it begins with that
command's four lanes, and what follows is left over. -/
def Obligations.DecodeBytesIffEncodeBytes : Prop :=
  ∀ (bs rest : List (BitVec 8)) (i : Instr), decodeBytes bs = .ok (i, rest) ↔ bs = encodeBytes i ++ rest

/-- 30_encoding.md R94: the decode as its case table, on every 32-bit word; a word it rejects raises ILLEGAL_CMD. -/
def Obligations.DecodeFollowsTheCaseTable : Prop :=
  ∀ w : Word,
    (w.toNat / 256 ≠ 0 → decode w = .reject .reservedBits) ∧
    (w.toNat / 256 = 0 → w.toNat % 256 > 7 → decode w = .reject .unknownOpcode) ∧
    (∀ i : Instr, decode w = .ok i ↔ (w.toNat / 256 = 0 ∧ w.toNat % 256 = (opcodeOf i).toNat)) ∧
    ∀ (s : State) (r : DecodeReject), s.cl = w → decode w = .reject r →
      engineStep s = .next { s with err := true, errCode := 0x1#4, busy := false }

/-- 30_encoding.md R93 and 60_exceptions.md R281: on the engine's turn, a latched word that is none of the
eight raises ILLEGAL_CMD, code 0x1, and changes no other state. -/
def Obligations.IllegalWordRaisesIllegalCmd : Prop :=
  ∀ s : State, s.engineTurn = true →
    (s.cl.toNat / 256 ≠ 0 ∨ 0x08 ≤ s.cl.toNat % 256) →
    step s = .next { s with err := true, errCode := 0x1#4, busy := false }

/-! ## The step -/

/-- A step runs the decoded command: on the engine's turn (a command pending, R43, and no host step drawn to
come before it, log 3) the step is `exec` of the command the latch decodes to, and nothing is added around it;
off its turn the step is the host's, and the engine never moves while BUSY = 0. -/
def Obligations.EngineStepRunsTheDecodedCommand : Prop :=
  (∀ (s : State) (i : Instr), s.busy = true → (s.polls = 0 ∨ s.program = []) → decode s.cl = .ok i →
    step s = exec i s) ∧
  (∀ s : State, s.busy = false → step s = .next (hostStep s)) ∧
  ∀ s : State, s.busy = true → s.polls ≠ 0 → s.program ≠ [] → step s = .next (hostStep s)

/-- Progress (R318, R43; the bound is the model's draw, log 3): a pending command is completed, or abandoned
by a reset, within the drawn number of host steps plus one. -/
def Obligations.PendingCommandCompletes : Prop :=
  ∀ s : State, s.busy = true →
    ∃ k t, k ≤ s.polls + 1 ∧ Host.Core.run Sys2Proof.core k s = .next t ∧ t.busy = false

/-! ## NOP, PRNG, NOISE, SINE -/

/-- 40_primitives.md R120. -/
def Obligations.NopOnlyClearsBusy : Prop :=
  (∀ s : State, exec .nop s = .next { s with busy := false }) ∧
  (∀ w : Word, decode w = .ok .nop ↔ w = 0x00000000#32) ∧
  State.reset.cl = 0x00000000#32 ∧
  engineStep (State.reset.busWrite (regOffset .cmd) 4 0#32) =
    exec .nop (State.reset.busWrite (regOffset .cmd) 4 0#32) ∧
  (∀ s t : State, s.result = 0x12345678#32 → s.err = false → s.errCode = 0#4 → exec .nop s = .next t →
    t.readReg .result = 0x12345678#32 ∧ t.readReg .status = 0#32)

/-- 40_primitives.md R121, with the operators of 00_scope.md R9 read on numbers: shifts left discard past bit
31, shifts right fill with zeros. -/
def Obligations.XorshiftIsTheThreeSteps : Prop :=
  ∀ s : Word,
    let a := s.toNat ^^^ (s.toNat * 2 ^ 13 % 2 ^ 32)
    let b := a ^^^ (a / 2 ^ 17)
    (xorshift32 s).toNat = b ^^^ (b * 2 ^ 5 % 2 ^ 32)

/-- 40_primitives.md, the properties derived from the algorithm: a bijection with 0 fixed, so nonzero states
stay nonzero. -/
def Obligations.XorshiftIsBijective : Prop :=
  Function.Bijective xorshift32 ∧ xorshift32 0#32 = 0#32 ∧ ∀ s : Word, s ≠ 0#32 → xorshift32 s ≠ 0#32

/-- 40_primitives.md R122: the new state is written to ARG0 and RESULT; n PRNG commands walk the sequence. -/
def Obligations.PrngAdvancesTheState : Prop :=
  (∀ s : State, exec .prng s =
    .next { s with arg0 := xorshift32 s.arg0, result := xorshift32 s.arg0, busy := false }) ∧
  encode .prng = 0x00000001#32 ∧ xorshift32 0#32 = 0#32 ∧ xorshift32 0x00000001#32 = 0x00042021#32 ∧
  0x00000001#32 ^^^ (0x00000001#32 <<< 13) = 0x00002001#32 ∧
  0x00002001#32 ^^^ (0x00002001#32 >>> 17) = 0x00002001#32 ∧
  ∀ (n : Nat) (s : State), ∃ t, Sys2Proof.Claims.prngTimes n s = .next t ∧ t.arg0 = xorshift32^[n] s.arg0 ∧
    (0 < n → t.result = xorshift32^[n] s.arg0)

/-- 40_primitives.md R124, read on numbers modulo 2^32. -/
def Obligations.HashNoiseIsTheFormula : Prop :=
  ∀ x y seed : Word,
    let h := (x.toNat * 374761393 + y.toNat * 668265263 + seed.toNat) % 2 ^ 32
    let g := (h ^^^ (h / 2 ^ 13)) * 1274126177 % 2 ^ 32
    (hashNoise x y seed).toNat = (g ^^^ (g / 2 ^ 16)) % 256

/-- 40_primitives.md R125. -/
def Obligations.NoiseWritesTheZeroExtendedNoise : Prop :=
  (∀ s : State, exec .noise s =
    .next { s with result := (hashNoise s.arg0 s.arg1 s.arg2).setWidth 32, busy := false }) ∧
  (∀ (s t : State), exec .noise s = .next t → t.result.toNat < 256) ∧
  encode .noise = 0x00000002#32 ∧ hashNoise 0#32 0#32 0#32 = 0#8 ∧
  hashNoise 0xFFFFFFFF#32 0#32 0#32 = 125#8 ∧ hashNoise 1#32 0#32 0#32 = 0xD6#8 ∧
  1#32 * 374761393#32 = 0x165667B1#32 ∧ 0x165667B1#32 ^^^ (0x165667B1#32 >>> 13) = 0x1656D502#32 ∧
  0x1656D502#32 * 1274126177#32 = 0x8214F3C2#32 ∧ 0x8214F3C2#32 ^^^ (0x8214F3C2#32 >>> 16) = 0x821471D6#32

/-- 40_primitives.md R127: the low 6 bits of the angle select an entry of SINE_TABLE, whichever table the block has;
the default is the 64 entries of R128. -/
def Obligations.SineTableIsTheSpecsTable : Prop :=
  (∀ (t : List Int) (a : BitVec 8), sineApprox t a = t.getD (a.toNat % 64) 0) ∧
  BlockParameters.default.sineTable = Sys2Proof.Claims.sineRows ∧ Sys2Proof.Claims.sineRows.length = 64 ∧
  Sys2Proof.Claims.sineRows.getD 62 1 = 0 ∧ Sys2Proof.Claims.sineRows.getD 63 1 = 0

/-- 40_primitives.md R129: RESULT takes the entry, sign-extended; bits 31:6 of ARG0 do not matter. The examples are of
the default SINE_TABLE. -/
def Obligations.SineWritesTheSignExtendedEntry : Prop :=
  (∀ s : State, exec .sine s =
    .next { s with
      result := BitVec.ofInt 32 (s.block.sineTable.getD (s.arg0.toNat % 64) 0)
      busy := false }) ∧
  encode .sine = 0x00000003#32 ∧
  (∀ s t : State, sineTableOk s.block.sineTable = true → exec .sine s = .next t →
    t.result.toInt = s.block.sineTable.getD (s.arg0.toNat % 64) 0) ∧
  (∀ s t : State, s.block.sineTable = Sys2Proof.Claims.sineRows → exec .sine s = .next t →
    (s.arg0 = 0x00000010#32 → t.result = 0x00000040#32) ∧ (s.arg0 = 0x00000030#32 → t.result = 0xFFFFFFC0#32) ∧
    (s.arg0 = 0x00000050#32 → t.result = 64#32) ∧ (s.arg0 = 0x00000140#32 → t.result = 0#32) ∧
    (s.arg0.toNat % 256 ∈ [62, 63, 126, 127, 190, 191, 254, 255] → t.result = 0#32))

/-! ## Binary32 -/

/-- 00_scope.md R7 and R10, with the IEEE 754 definitions that R10 takes from general knowledge (log 19): sum,
difference, product, quotient and the conversion of an integer are nearest to the exact result, or an infinity past the
overflow threshold; the signs of results; infinite operands and division by zero; every NaN result is 0x7FC00000;
integers up to 2^24 convert exactly; the comparisons are the order of the values and false with a NaN. -/
def Obligations.ArithmeticIsRoundedToNearest : Prop :=
  (∀ a b : F32, fIsFinite a = true → fIsFinite b = true →
    Sys2Proof.Claims.RoundsTo (fadd a b) (Sys2Proof.Claims.real a + Sys2Proof.Claims.real b) ∧
    Sys2Proof.Claims.RoundsTo (fsub a b) (Sys2Proof.Claims.real a - Sys2Proof.Claims.real b) ∧
    Sys2Proof.Claims.RoundsTo (fmul a b) (Sys2Proof.Claims.real a * Sys2Proof.Claims.real b) ∧
    (fIsZero b = false →
      Sys2Proof.Claims.RoundsTo (fdiv a b) (Sys2Proof.Claims.real a / Sys2Proof.Claims.real b)) ∧
    (Sys2Proof.Claims.real a + Sys2Proof.Claims.real b = 0 → fSign (fadd a b) = (fSign a && fSign b)) ∧
    fSign (fmul a b) = (fSign a != fSign b) ∧
    (fIsZero b = false → fSign (fdiv a b) = (fSign a != fSign b)) ∧
    (fIsZero a = false → fIsZero b = true → fdiv a b = Sys2Proof.Claims.signedInf (fSign a != fSign b)) ∧
    (fIsZero a = true → fIsZero b = true → fdiv a b = 0x7FC00000#32) ∧
    (flt a b = true ↔ Sys2Proof.Claims.real a < Sys2Proof.Claims.real b) ∧
    (fle a b = true ↔ Sys2Proof.Claims.real a ≤ Sys2Proof.Claims.real b)) ∧
  (∀ a b : F32, fsub a b = fadd a (b ^^^ 0x80000000#32)) ∧
  (∀ a b : F32, fIsNaN a = true ∨ fIsNaN b = true →
    fadd a b = 0x7FC00000#32 ∧ fsub a b = 0x7FC00000#32 ∧ fmul a b = 0x7FC00000#32 ∧ fdiv a b = 0x7FC00000#32 ∧
    flt a b = false ∧ fle a b = false) ∧
  (∀ (a : F32) (p q : Bool), fIsFinite a = true →
    fadd a (Sys2Proof.Claims.signedInf q) = Sys2Proof.Claims.signedInf q ∧
    fadd (Sys2Proof.Claims.signedInf p) a = Sys2Proof.Claims.signedInf p ∧
    fmul a (Sys2Proof.Claims.signedInf q) =
      (if fIsZero a then 0x7FC00000#32 else Sys2Proof.Claims.signedInf (fSign a != q)) ∧
    fmul (Sys2Proof.Claims.signedInf p) a =
      (if fIsZero a then 0x7FC00000#32 else Sys2Proof.Claims.signedInf (p != fSign a)) ∧
    fdiv a (Sys2Proof.Claims.signedInf q) = Sys2Proof.Claims.signedZero (fSign a != q) ∧
    fdiv (Sys2Proof.Claims.signedInf p) a = Sys2Proof.Claims.signedInf (p != fSign a) ∧
    flt a (Sys2Proof.Claims.signedInf q) = !q ∧ flt (Sys2Proof.Claims.signedInf p) a = p ∧
    fle a (Sys2Proof.Claims.signedInf q) = !q ∧ fle (Sys2Proof.Claims.signedInf p) a = p) ∧
  (∀ p q : Bool,
    fadd (Sys2Proof.Claims.signedInf p) (Sys2Proof.Claims.signedInf q) =
      (if p = q then Sys2Proof.Claims.signedInf p else 0x7FC00000#32) ∧
    fmul (Sys2Proof.Claims.signedInf p) (Sys2Proof.Claims.signedInf q) = Sys2Proof.Claims.signedInf (p != q) ∧
    fdiv (Sys2Proof.Claims.signedInf p) (Sys2Proof.Claims.signedInf q) = 0x7FC00000#32 ∧
    flt (Sys2Proof.Claims.signedInf p) (Sys2Proof.Claims.signedInf q) = (p && !q) ∧
    fle (Sys2Proof.Claims.signedInf p) (Sys2Proof.Claims.signedInf q) = (p || !q)) ∧
  (∀ n : Int, Sys2Proof.Claims.RoundsTo (cvtF32 n) (n : ℝ)) ∧
  ∀ n : Int, |n| ≤ 2 ^ 24 → fIsFinite (cvtF32 n) = true ∧ Sys2Proof.Claims.real (cvtF32 n) = (n : ℝ)

/-- 41_pattern.md R178: `fsqrt` of a finite value ≥ 0 is finite and nearest to the exact root; the roots of −0, of a
negative value, of an infinity and of a NaN are IEEE 754's (log 19). -/
def Obligations.SquareRootIsRoundedToNearest : Prop :=
  (∀ a : F32, fIsFinite a = true → fSign a = false →
    Sys2Proof.Claims.IsNearest (fsqrt a) (Real.sqrt (Sys2Proof.Claims.real a))) ∧
  fsqrt 0x80000000#32 = 0x80000000#32 ∧ fsqrt 0x7F800000#32 = 0x7F800000#32 ∧
  (∀ a : F32, fSign a = true → fIsZero a = false → fsqrt a = 0x7FC00000#32) ∧
  ∀ a : F32, fIsNaN a = true → fsqrt a = 0x7FC00000#32

/-- 00_scope.md R10: `ffmod` is exact, with the sign of the dividend; with a NaN, an infinite dividend or a zero
divisor it is the NaN, and with an infinite divisor the dividend (log 19). -/
def Obligations.RemainderIsExact : Prop :=
  (∀ a b : F32, fIsFinite a = true → fIsFinite b = true → fIsZero b = false →
    fUnits (ffmod a b) = Int.tmod (fUnits a) (fUnits b) ∧ fIsFinite (ffmod a b) = true ∧
      fSign (ffmod a b) = fSign a) ∧
  (∀ a b : F32, fIsNaN a = true ∨ fIsNaN b = true ∨ fIsInf a = true ∨ fIsZero b = true →
    ffmod a b = 0x7FC00000#32) ∧
  ∀ a b : F32, fIsFinite a = true → fIsInf b = true → ffmod a b = a

/-- 41_pattern.md R178: the rationals the default ATAN2_F32 rounds enclose the exact angle (log 6); where an
enclosure of one of its tries decides, its value is nearest to that angle, with the sign of y; the values R178 gives on
the axis; and whichever function the parameter is, its value lies in [−f32(π), f32(π)], every value of which is
admitted where R178 states no other (logs 5 and 7). -/
def Obligations.AngleEnclosureContainsTheAngle : Prop :=
  (∀ (n y x : Nat) (xNeg : Bool), 0 < n → (0 < y ∨ 0 < x) →
    ((upperAngle n xNeg y x).lo : ℝ) ≤ Sys2Proof.Claims.exactAngle xNeg y x ∧
    Sys2Proof.Claims.exactAngle xNeg y x ≤ ((upperAngle n xNeg y x).hi : ℝ)) ∧
  (∀ (y x : F32) (n m : Nat), fIsFinite y = true → fIsFinite x = true →
    (fIsZero y = false ∨ fIsZero x = false) → n ∈ atanTries →
    enclosureMag (upperAngle n (fSign x) (fAbsUnits y) (fAbsUnits x)) = some m →
    fSign (atan2F32 .nearest y x) = fSign y ∧ fMag (atan2F32 .nearest y x) = m ∧
    Sys2Proof.Claims.IsNearest (fPack false m)
      (Sys2Proof.Claims.exactAngle (fSign x) (fAbsUnits y) (fAbsUnits x))) ∧
  (∀ y x : F32, fIsZero y = true → flt x 0#32 = true →
    atan2F32 .nearest y x = if fSign y then 0xC0490FDB#32 else 0x40490FDB#32) ∧
  (∀ y : F32, fIsZero y = true → atan2F32 .nearest y 0#32 = y) ∧
  (∀ (p : Atan2Parameter) (y x : F32), p.ok = true →
    fle 0xC0490FDB#32 (atan2F32 p y x) = true ∧ fle (atan2F32 p y x) 0x40490FDB#32 = true) ∧
  (∀ v : F32, fle 0xC0490FDB#32 v = true → fle v 0x40490FDB#32 = true → ∃ w, boundAngle w = v) ∧
  ∀ (y x v : F32) (l : List Atan2Entry), atan2F32 (.table (⟨y, x, v⟩ :: l)) y x = v

/-! ## The pattern evaluator -/

/-- 41_pattern.md R161: both conversions, on every pattern and for every draw. -/
def Obligations.FloatConversionsTruncateOrDraw : Prop :=
  ∀ (v : F32) (k : Nat),
    (fIsFinite v = true ∧ -(2 ^ 149) < fUnits v ∧ fUnits v < 2 ^ 180 →
      ((truncAngle v k).toNat : Int) = Int.tdiv (fUnits v) (2 ^ 149) % 64) ∧
    (¬(fIsFinite v = true ∧ -(2 ^ 149) < fUnits v ∧ fUnits v < 2 ^ 180) →
      (truncAngle v k).toNat = (Config.freeWord k).toNat % 64) ∧
    (fIsFinite v = true ∧ -(2 ^ 180) ≤ fUnits v ∧ fUnits v < 2 ^ 180 →
      truncS32 v k = Int.tdiv (fUnits v) (2 ^ 149)) ∧
    (¬(fIsFinite v = true ∧ -(2 ^ 180) ≤ fUnits v ∧ fUnits v < 2 ^ 180) →
      truncS32 v k = (Config.freeWord k).toInt)

/-- 41_pattern.md, the sentence derived in the rule of the conversions: with the frequency in [0.1, 4.0] and the
noise scale in [0, 0.05], the ranges the source documents, and the default parameters of 00_scope.md, no draw enters a pixel's value. -/
def Obligations.DocumentedRangesMakeNoDraw : Prop :=
  ∀ (p : PatternParams) (d d' x y : Nat), p.block = BlockParameters.default →
    dimsOk p.width p.height = true → x < p.width → y < p.height →
    fle 0x3DCCCCCD#32 p.freq = true → fle p.freq 0x40800000#32 = true →
    fle 0#32 p.nscale = true → fle p.nscale 0x3D4CCCCD#32 = true → evaluate p d x y = evaluate p d' x y

/-- 41_pattern.md, step 1: a pixel coordinate over the size is in [0, 1) (derived there). -/
def Obligations.NormalisedCoordinateIsBelowOne : Prop :=
  ∀ c size : Nat, c < size → size ≤ 2 ^ 20 →
    fIsFinite (normalise c size) = true ∧ 0 ≤ fUnits (normalise c size) ∧
    fUnits (normalise c size) < 2 ^ 149 ∧
    Sys2Proof.Claims.IsNearest (normalise c size) ((c : ℝ) / (size : ℝ))

/-- 41_pattern.md, steps 1 to 5: the raw value of every kind, written out again from the step's formulas in the
instance's parameters (log 5), the order of the steps, the parameters' defaults (00_scope.md), and with them one pixel of
each kind of the rules' examples. -/
def Obligations.PatternKindsFollowTheirFormulas : Prop :=
  (∀ (p : PatternParams) (d x y : Nat),
    let nx := fdiv (cvtF32 x) (cvtF32 p.width)
    let ny := fdiv (cvtF32 y) (cvtF32 p.height)
    let dx := fsub nx 0x3F000000#32
    let dy := fsub ny 0x3F000000#32
    let r := fsqrt (fadd (fmul dx dx) (fmul dy dy))
    let entry (a : BitVec 6) : Int := p.block.sineTable.getD a.toNat 0
    let scaled (t : Int) : F32 := fdiv (cvtF32 (t + 64)) 0x43000000#32
    rawValue p d x y =
      (if p.kind = 1#32 then ny
      else if p.kind = 2#32 then fmul r p.block.radialScale
      else if p.kind = 3#32 then fdiv (fadd nx ny) 0x40000000#32
      else if p.kind = 4#32 then scaled (entry (truncAngle (fmul (fmul nx 0x42800000#32) p.freq) d))
      else if p.kind = 5#32 then
        scaled (entry (truncAngle (fadd (fmul (fmul ny 0x42800000#32) p.freq) 0x41800000#32) d))
      else if p.kind = 6#32 then
        scaled (Int.tdiv (entry (truncAngle (fmul (fmul nx 0x42000000#32) p.freq) d) *
          entry (truncAngle (fmul (fmul ny 0x42000000#32) p.freq) (d + 1))) 64)
      else if p.kind = 7#32 then
        (if (truncS32 (fmul (fmul nx 0x41000000#32) p.freq) d -
            truncS32 (fmul (fmul ny 0x41000000#32) p.freq) (d + 1)) % 2 = 0 then 0#32 else 0x3F800000#32)
      else if p.kind = 8#32 then
        fdiv (cvtF32 ((hashNoise (BitVec.ofNat 32 x) (BitVec.ofNat 32 y) p.seed).toNat : Int)) 0x437F0000#32
      else if p.kind = 9#32 then
        fdiv (ffmod (fadd (atan2F32 p.block.atan2 dy dx) (fmul r 0x41200000#32)) p.block.twoPi) p.block.twoPi
      else nx) ∧
    evaluate p d x y = quantise (invertUnit p.invert (clampUnit (overlay p d x y (rawValue p d x y)))) (d + 4)) ∧
  BlockParameters.default =
    ⟨Sys2Proof.Claims.sineRows, 0x3FB504F3#32, 0x40C90FDB#32, .nearest, 0x3F333333#32, 0x3E99999A#32,
      0x46474131#32⟩ ∧
  (List.range 10).map (fun k =>
      (evaluate ⟨42#32, BitVec.ofNat 32 k, 0x3F800000#32, 0#32, false, 128, 64, .default⟩ 0 100 10).toNat) =
    [199, 39, 160, 119, 1, 199, 165, 255, 182, 144]

/-- 41_pattern.md R163: a KIND above 9 evaluates every pixel as KIND 0 does and raises no error; 0 … 9 select the
ten kinds. -/
def Obligations.OutOfRangeKindActsAsKindZero : Prop :=
  (∀ (p : PatternParams) (d x y : Nat), 9 < p.kind.toNat →
    evaluate p d x y = evaluate { p with kind := 0#32 } d x y) ∧
  (List.range 10).map (fun k => patternKind (BitVec.ofNat 32 k)) =
    [.horizontal, .vertical, .radial, .diagonal, .sine, .cosine, .interference, .checkerboard, .noise, .spiral] ∧
  (∀ s t : State, 9 < s.kind.toNat → s.arg0.toNat < s.width → s.arg1.toNat < s.height →
    exec .eval s = .next t → t.err = s.err ∧ t.errCode = s.errCode) ∧
  ∀ k ∈ [10#32, 255#32, 0x80000000#32, 0xFFFFFFFF#32], ∀ d : Nat,
    evaluate ⟨42#32, k, 0x3F800000#32, 0#32, false, 128, 64, .default⟩ d 100 10 = 199#8

/-- 41_pattern.md, kinds 0 and 1 with the overlay off, not inverted, on the default canvas: the intensity is
⌊255·x/128⌋, or ⌊255·y/64⌋. -/
def Obligations.GradientKindsAreExactOnTheDefaultCanvas : Prop :=
  ∀ (p : PatternParams) (d x y : Nat), p.width = 128 → p.height = 64 → x < 128 → y < 64 →
    p.invert = false → flt 0#32 p.nscale = false →
    (p.kind = 0#32 → (evaluate p d x y).toNat = 255 * x / 128) ∧
    (p.kind = 1#32 → (evaluate p d x y).toNat = 255 * y / 64)

/-- 41_pattern.md R172's derived sentence: with the overlay off and not inverted, kind 8 gives the noise byte
of the pixel itself. -/
def Obligations.NoiseKindGivesTheNoiseByte : Prop :=
  ∀ (p : PatternParams) (d x y : Nat), p.kind = 8#32 → p.invert = false → flt 0#32 p.nscale = false →
    evaluate p d x y = hashNoise (BitVec.ofNat 32 x) (BitVec.ofNat 32 y) p.seed

/-- 41_pattern.md, derived there for kinds 4 to 7: with a legal sine table the raw value of kinds 4, 5 and 6 is j/128
for some j ≤ 128, and with the overlay off kind 7 gives 0 or 255 only; both at every frequency, drawn conversions included. -/
def Obligations.WaveAndCheckerboardKindsTakeTheirValues : Prop :=
  (∀ (p : PatternParams) (d x y : Nat), sineTableOk p.block.sineTable = true →
    p.kind ∈ [4#32, 5#32, 6#32] → ∃ j : Nat, j ≤ 128 ∧ Sys2Proof.Claims.real (rawValue p d x y) = (j : ℝ) / 128) ∧
  ∀ (p : PatternParams) (d x y : Nat), p.kind = 7#32 → flt 0#32 p.nscale = false →
    evaluate p d x y = 0#8 ∨ evaluate p d x y = 255#8

/-- 41_pattern.md R174: the overlay is applied exactly when NSCALE > 0 as an IEEE comparison, to every kind,
with its formula; its examples on kind 0, with the default parameters. -/
def Obligations.OverlayIsAppliedExactlyWhenScalePositive : Prop :=
  (∀ (p : PatternParams) (d x y : Nat) (v : F32), flt 0#32 p.nscale = true →
    overlay p d x y v =
      fadd (fmul v p.block.blendA)
        (fmul (fdiv (cvtF32 ((hashNoise (BitVec.ofInt 32 (truncS32 (fmul (cvtF32 x) p.nscale) (d + 2)))
          (BitVec.ofInt 32 (truncS32 (fmul (cvtF32 y) p.nscale) (d + 3))) p.seed).toNat : Int)) 0x437F0000#32)
          p.block.blendB)) ∧
  BlockParameters.default.blendA = 0x3F333333#32 ∧ BlockParameters.default.blendB = 0x3E99999A#32 ∧
  (∀ (p : PatternParams) (d x y : Nat) (v : F32), flt 0#32 p.nscale = false → overlay p d x y v = v) ∧
  (∀ ns : F32, flt 0#32 ns = true ↔ (fIsNaN ns = false ∧ fSign ns = false ∧ fIsZero ns = false)) ∧
  truncS32 (fmul (cvtF32 19) 0x3D4CCCCD#32) 0 = 0 ∧ fmul (cvtF32 20) 0x3D4CCCCD#32 = 0x3F800000#32 ∧
  truncS32 (fmul (cvtF32 20) 0x3D4CCCCD#32) 0 = 1 ∧
  ∀ d : Nat,
    evaluate ⟨42#32, 0#32, 0x3F800000#32, 0x3D4CCCCD#32, false, 128, 64, .default⟩ d 0 0 = 23#8 ∧
    evaluate ⟨42#32, 0#32, 0x3F800000#32, 0x3D4CCCCD#32, false, 128, 64, .default⟩ d 19 0 = 49#8 ∧
    evaluate ⟨42#32, 0#32, 0x3F800000#32, 0x3D4CCCCD#32, false, 128, 64, .default⟩ d 20 0 = 42#8 ∧
    evaluate ⟨42#32, 0#32, 0x3F800000#32, 0x3D4CCCCD#32, false, 128, 64, .default⟩ d 64 32 = 163#8 ∧
    evaluate ⟨42#32, 0#32, 0x3F800000#32, 0x3D4CCCCD#32, false, 128, 64, .default⟩ d 127 63 = 215#8

/-- 41_pattern.md, steps 2 to 4a: for every register value and every legal pixel, the value that reaches the
clamp is finite, so no NaN case arises (derived in the clamp's rule), with the default scale, period and weights, and any
legal sine table and arctangent. -/
def Obligations.EvaluatorNeverMeetsNaN : Prop :=
  ∀ (p : PatternParams) (d x y : Nat), dimsOk p.width p.height = true → x < p.width → y < p.height →
    p.block.ok = true → p.block.radialScale = 0x3FB504F3#32 → p.block.twoPi = 0x40C90FDB#32 →
    p.block.blendA = 0x3F333333#32 → p.block.blendB = 0x3E99999A#32 →
    fIsFinite (rawValue p d x y) = true ∧ fIsFinite (overlay p d x y (rawValue p d x y)) = true

/-- 41_pattern.md, steps 4 and 5: the clamp takes a negative value to 0.0, one above 1.0 to 1.0 and keeps the others;
inversion replaces v by 1.0 ⊖ v exactly when INVERT = 1; both stay in [0, 1]; the quantised byte is the floor of 255 times
the value, and a draw where the value is no number (log 24); the examples of the inversion, on kind 0. -/
def Obligations.ClampInvertQuantiseStayInRange : Prop :=
  (∀ v : F32, fIsFinite v = true → fle 0#32 (clampUnit v) = true ∧ fle (clampUnit v) 0x3F800000#32 = true ∧
    (fle 0#32 v = true → fle v 0x3F800000#32 = true → clampUnit v = v)) ∧
  (∀ v : F32, flt v 0#32 = true → clampUnit v = 0#32) ∧
  (∀ v : F32, flt 0x3F800000#32 v = true → clampUnit v = 0x3F800000#32) ∧
  (∀ v : F32, invertUnit true v = fsub 0x3F800000#32 v ∧ invertUnit false v = v) ∧
  (∀ v : F32, fle 0#32 v = true → fle v 0x3F800000#32 = true →
    Sys2Proof.Claims.IsNearest (invertUnit true v) (1 - Sys2Proof.Claims.real v)) ∧
  (∀ (inv : Bool) (v : F32), fle 0#32 v = true → fle v 0x3F800000#32 = true →
    fle 0#32 (invertUnit inv v) = true ∧ fle (invertUnit inv v) 0x3F800000#32 = true) ∧
  (∀ (v : F32) (k : Nat), fle 0#32 v = true → fle v 0x3F800000#32 = true →
    ((quantise v k).toNat : Int) = ⌊Sys2Proof.Claims.real (fmul v 0x437F0000#32)⌋) ∧
  (∀ (v : F32) (k : Nat), fIsNaN v = true → (quantise v k).toNat = (Config.freeWord k).toNat % 256) ∧
  ∀ d : Nat,
    evaluate ⟨42#32, 0#32, 0x3F800000#32, 0#32, true, 128, 64, .default⟩ d 0 0 = 255#8 ∧
    evaluate ⟨42#32, 0#32, 0x3F800000#32, 0#32, true, 128, 64, .default⟩ d 1 0 = 253#8 ∧
    evaluate ⟨42#32, 0#32, 0x3F800000#32, 0#32, true, 128, 64, .default⟩ d 127 0 = 1#8 ∧
    evaluate ⟨42#32, 0#32, 0x3F800000#32, 0#32, true, 128, 64, .default⟩ d 64 32 = 127#8

/-- 41_pattern.md R180: inside the canvas EVAL writes the intensity to RESULT (its draws are
those of the model's next slots, log 2); outside it raises BAD_COORD and changes nothing else. -/
def Obligations.EvalWritesTheIntensityOrRaisesBadCoord : Prop :=
  (∀ s : State, s.arg0.toNat < s.width → s.arg1.toNat < s.height →
    ∃ t, exec .eval s = .next t ∧ t = { s with
      result := (evaluate s.patternParams s.draws s.arg0.toNat s.arg1.toNat).setWidth 32
      draws := t.draws
      busy := false }) ∧
  (∀ s : State, (s.width ≤ s.arg0.toNat ∨ s.height ≤ s.arg1.toNat) →
    exec .eval s = .next { s with err := true, errCode := 0x2#4, busy := false }) ∧
  encode .eval = 0x00000004#32 ∧
  (∀ s : State, s.arg0 = 127#32 → s.arg1 = 32#32 → s.kind = 0#32 → s.nscale = 0#32 → s.invert = false →
    s.width = 128 → s.height = 64 → ∃ t, exec .eval s = .next t ∧ t.result = 253#32) ∧
  (∀ s : State, s.arg0 = 128#32 → s.width = 128 →
    exec .eval s = .next { s with err := true, errCode := 0x2#4, busy := false })

/-- 41_pattern.md R181: FILL writes the intensity of pixel (i mod W, i div W) to every canvas byte i, reads no
canvas byte, and changes nothing else; each pixel has draw slots of its own (which ones is the model's, log 2). -/
def Obligations.FillWritesEveryIntensity : Prop :=
  (∀ s : State, ∃ t, exec .fill s = .next t ∧
    t = { s with canvas := t.canvas, draws := t.draws, busy := false } ∧
    (∀ i, i < s.width * s.height →
      t.canvasByte i = evaluate s.patternParams (s.draws + 5 * i) (i % s.width) (i / s.width)) ∧
    ∀ i, s.width * s.height ≤ i → t.canvasByte i = s.canvasByte i) ∧
  encode .fill = 0x00000005#32 ∧
  ∀ s : State, s.width = 4 → s.height = 2 → s.kind = 0#32 → s.nscale = 0#32 → s.invert = false →
    ∃ t, exec .fill s = .next t ∧ t.canvasBytes = [0#8, 63#8, 127#8, 191#8, 0#8, 63#8, 127#8, 191#8]

/-! ## The ditherer -/

/-- 42_dither.md R221: the error is the old byte less the thresholded one (R220). -/
def Obligations.ThresholdAndErrorOfEveryByte : Prop :=
  ∀ old : Byte,
    (ditherNew old).toNat = (if old.toNat > 127 then 255 else 0) ∧
    ditherErr old = (old.toNat : Int) - ((ditherNew old).toNat : Int)

/-- 42_dither.md R224 with R220 to R223: the ditherer is the two nested loops of R224, byte for byte. -/
def Obligations.DitherIsTheNestedLoops : Prop :=
  ∀ (w h : Nat) (c : List Byte), c.length = w * h → ∀ i, i < w * h →
    (((ditherBytes w h c).getD i 0#8).toNat : Int) =
      Sys2Proof.Claims.ditherLoops w h (fun j => ((c.getD j 0#8).toNat : Int)) i ∧
    Int.tdiv (-73 * 7) 16 = -31

/-- 42_dither.md R225: DITHER performs `dither()` on the canvas and changes nothing else; a canvas of all 0 or
all 255 is unchanged; one column sends only below, one row only right; the all-127 canvas gives 0, 255, 255 at (0,0), (1,0), (0,1). -/
def Obligations.DitherCommandDithersTheCanvas : Prop :=
  (∀ s : State, ∃ t, exec .dither s = .next t ∧ t = { s with canvas := t.canvas, busy := false } ∧
    (∀ i, i < s.width * s.height →
      t.canvasByte i =
        (ditherBytes s.width s.height ((List.range (s.width * s.height)).map s.canvasByte)).getD i 0#8) ∧
    (∀ i, s.width * s.height ≤ i → t.canvasByte i = s.canvasByte i) ∧
    ∀ b : Byte, b ∈ [0#8, 255#8] → (∀ i, i < s.width * s.height → s.canvasByte i = b) →
      ∀ i, t.canvasByte i = s.canvasByte i) ∧
  encode .dither = 0x00000006#32 ∧
  (∀ (h y : Nat) (err : Int) (c : List Byte), ditherWeights.foldl (ditherSend 1 h err 0 y) c =
    if y + 1 < h then c.set (y + 1) (ditherShare (c.getD (y + 1) 0#8) err 5) else c) ∧
  (∀ (w x : Nat) (err : Int) (c : List Byte), ditherWeights.foldl (ditherSend w 1 err x 0) c =
    if x + 1 < w then c.set (x + 1) (ditherShare (c.getD (x + 1) 0#8) err 7) else c) ∧
  ∀ s : State, 2 ≤ s.width → 2 ≤ s.height → (∀ i, i < s.width * s.height → s.canvasByte i = 127#8) →
    ∃ t, exec .dither s = .next t ∧ t.canvasByte 0 = 0#8 ∧ t.canvasByte 1 = 255#8 ∧ t.canvasByte s.width = 255#8

/-- 42_dither.md, the properties derived there: after DITHER and after RENDER every canvas byte is 0 or 255; DITHER
leaves a canvas of bytes 0 and 255 unchanged; its result is a function of the canvas bytes alone, and RENDER's does not
depend on the canvas before it; an error lies in −127 … 127. -/
def Obligations.DitheredCanvasIsBinaryStableAndDetermined : Prop :=
  (∀ (i : Instr) (s t : State), i ∈ [Instr.dither, Instr.render] → exec i s = .next t →
    ∀ j, j < s.width * s.height → t.canvasByte j = 0#8 ∨ t.canvasByte j = 255#8) ∧
  (∀ s : State, (∀ i, i < s.width * s.height → s.canvasByte i = 0#8 ∨ s.canvasByte i = 255#8) →
    ∃ t, exec .dither s = .next t ∧ ∀ i, t.canvasByte i = s.canvasByte i) ∧
  (∀ s u : State, s.width = u.width → s.height = u.height →
    (∀ i, i < s.width * s.height → s.canvasByte i = u.canvasByte i) →
    ∃ t v, exec .dither s = .next t ∧ exec .dither u = .next v ∧
      ∀ i, i < s.width * s.height → t.canvasByte i = v.canvasByte i) ∧
  (∀ (s : State) (m : Memory) (r : Nat) (t u : State), exec .render s = .next t →
    exec .render { s with canvas := m, resets := r } = .next u →
    ∀ i, i < s.width * s.height → u.canvasByte i = t.canvasByte i) ∧
  ∀ old : Byte, -127 ≤ ditherErr old ∧ ditherErr old ≤ 127

/-- 42_dither.md R226: RENDER is FILL's body then `dither()` in one step: what FILL and then DITHER
give. -/
def Obligations.RenderIsFillThenDither : Prop :=
  (∀ s : State, ∃ u t, exec .fill s = .next u ∧ exec .dither u = .next t ∧ exec .render s = .next t ∧
    t = { s with canvas := t.canvas, draws := t.draws, busy := false } ∧
    ∀ i, s.width * s.height ≤ i → t.canvasByte i = s.canvasByte i) ∧
  encode .render = 0x00000007#32 ∧
  ∀ s : State, s.width = 4 → s.height = 2 → s.kind = 0#32 → s.nscale = 0#32 → s.invert = false →
    ∃ t, exec .render s = .next t ∧ t.canvasBytes = [0#8, 0#8, 255#8, 255#8, 0#8, 0#8, 0#8, 255#8]

/-! ## Frames -/

/-- What the eight commands leave unchanged (10_state.md, the register rules; 60_exceptions.md, the effect of a
command error): no command writes ARG1, ARG2, a parameter register, the latch, the instance's parameters, the fault set or
the host; ARG0 only PRNG; RESULT only PRNG, NOISE, SINE and EVAL; ERR and ERRCODE only EVAL; the canvas only
FILL, DITHER and RENDER, and no byte past its end. -/
def Obligations.CommandsLeaveEverythingElseUnchanged : Prop :=
  ∀ (i : Instr) (s t : State), exec i s = .next t →
    t.busy = false ∧ t.cl = s.cl ∧ t.arg1 = s.arg1 ∧ t.arg2 = s.arg2 ∧ t.seed = s.seed ∧ t.kind = s.kind ∧
    t.freq = s.freq ∧ t.nscale = s.nscale ∧ t.invert = s.invert ∧ t.width = s.width ∧ t.height = s.height ∧ t.block = s.block ∧
    t.scan = s.scan ∧ t.faults = s.faults ∧ t.resets = s.resets ∧ t.polls = s.polls ∧ s.SameHost t ∧
    (i ≠ .prng → t.arg0 = s.arg0) ∧
    (i ∉ [Instr.prng, Instr.noise, Instr.sine, Instr.eval] → t.result = s.result) ∧
    (i ≠ .eval → t.err = s.err ∧ t.errCode = s.errCode) ∧
    (i ∉ [Instr.eval, Instr.fill, Instr.render] → t.draws = s.draws) ∧
    (i ∉ [Instr.fill, Instr.dither, Instr.render] → ∀ j, t.canvasByte j = s.canvasByte j) ∧
    ∀ j, s.width * s.height ≤ j → t.canvasByte j = s.canvasByte j

/-! ## STATUS -/

/-- 10_state.md R26 with the field places of R23 to R25: the reserved bits of STATUS read 0 whatever was
written, and a STATUS read has no side effect. -/
def Obligations.StatusReservedBitsReadZero : Prop :=
  ∀ s : State,
    (∀ k, (k = 2 ∨ k = 3 ∨ 8 ≤ k) → (s.readReg .status).getLsbD k = false) ∧
    (∀ (v : Word) (k : Nat), (k = 2 ∨ k = 3 ∨ 8 ≤ k) →
      ((s.writeReg .status v).readReg .status).getLsbD k = false) ∧
    (s.readReg .status).getLsbD 0 = s.busy ∧ (s.readReg .status).getLsbD 1 = s.err ∧
    (s.readReg .status).extractLsb' 4 4 = s.errCode ∧
    s.busRead 0x000004#24 4 = (s, some (s.readReg .status))

/-- 10_state.md, STATUS.ERR and STATUS.ERRCODE: ERR is set by a command that ends with a command error, with its code,
and cleared by a host write of STATUS with bit 1 = 1 or by the reset event, and no other step changes either (that the
host's writes and the reset event are entries of the host's program is the model's, logs 4 and 15). -/
def Obligations.ErrIsSetByErrorsAndClearedByTheHost : Prop :=
  (∀ (s : State) (e : CmdError), (s.raiseCmdError e).err = true ∧
    ((e = .illegalCmd → (s.raiseCmdError e).errCode = 0x1#4) ∧
      (e = .badCoord → (s.raiseCmdError e).errCode = 0x2#4))) ∧
  (∀ (s : State) (v : Word), v.getLsbD 1 = true →
    (s.writeReg .status v).err = false ∧ (s.writeReg .status v).errCode = 0x0#4) ∧
  (∀ (s : State) (v : Word), v.getLsbD 1 = false → s.writeReg .status v = s) ∧
  (∀ s t : State, engineStep s = .next t →
    (t.err = s.err ∧ t.errCode = s.errCode) ∨
      (t.err = true ∧ (t.errCode = 0x1#4 ∨ t.errCode = 0x2#4))) ∧
  (∀ (s t : State) (i : Instr), decode s.cl = .ok i →
    (i = .eval → s.arg0.toNat < s.width ∧ s.arg1.toNat < s.height) → engineStep s = .next t →
    t.err = s.err ∧ t.errCode = s.errCode) ∧
  (∀ s t : State, step s = .next t → t.errCode ∈ [s.errCode, 0x0#4, 0x1#4, 0x2#4]) ∧
  (∀ s t : State, step s = .next t → s.engineTurn = false → (t.err ≠ s.err ∨ t.errCode ≠ s.errCode) →
    t.err = false ∧ t.errCode = 0x0#4 ∧
    ∃ rest, (∃ v : Word, v.getLsbD 1 = true ∧ s.busy = false ∧ s.program = .write 0x000004#24 4 v :: rest) ∨
      s.program = .platformReset :: rest) ∧
  (∀ s t : State, step s = .next t → s.err = true → t.err = false → s.engineTurn = false) ∧
  State.reset.err = false ∧ State.reset.errCode = 0x0#4

/-- 10_state.md, STATUS.BUSY, and 70_reset_and_hazards.md, Reset: only these events change BUSY: a host write of CMD
sets it, and the engine's step or the reset event clears it; a write to STATUS does not change it (that the host's writes
and the reset event are entries of the host's program is the model's, logs 4 and 15). -/
def Obligations.BusyFromTheCmdWriteToTheEngineStep : Prop :=
  (∀ (s : State) (v : Word), (s.writeReg .cmd v).busy = true ∧ (s.writeReg .status v).busy = s.busy) ∧
  (∀ s t : State, step s = .next t → s.engineTurn = true → t.busy = false) ∧
  (∀ s t : State, step s = .next t → s.busy = true → s.engineTurn = false → t.busy = false →
    ∃ rest, s.program = .platformReset :: rest) ∧
  (∀ s t : State, step s = .next t → s.busy = false → t.busy = true →
    ∃ v rest, s.program = .write 0x000008#24 4 v :: rest ∧ t.cl = v) ∧
  State.reset.busy = false

/-- 10_state.md R27: a CMD write latches the word and sets BUSY as one step of the host, whatever the word (the
schedule drawn with it is the model's, log 3); while BUSY = 1 it is a hazard; CMD reads 0; after reset CL = 0 and no
command is pending. -/
def Obligations.CmdWriteLatchesTheWord : Prop :=
  (∀ (s : State) (v : Word), s.busy = false →
    ∃ n d, s.busWrite 0x000008#24 4 v = { s with cl := v, busy := true, polls := n, draws := d }) ∧
  (∀ (s : State) (v : Word), s.busy = true →
    s.busWrite 0x000008#24 4 v = { s with faults := faultInsert (.hazardAccess 0x000008#24) s.faults }) ∧
  (∀ s : State, s.readReg .cmd = 0#32) ∧ State.reset.cl = 0#32 ∧ State.reset.busy = false

/-! ## Host bus -/

/-- 20_memory.md R65 with 10_state.md R21: what each register reads after a 32-bit write of it, and that no write has
any other effect: a register write other than CMD's leaves the latch, the canvas, the fault set and the host, a CMD write
only latches the word and sets BUSY (and the schedule drawn with it, log 3), a canvas write changes its byte alone. -/
def Obligations.RegisterWritesStoreOrAreIgnored : Prop :=
  ∀ (s : State) (v : Word), s.busy = false →
    (∀ r ∈ [Reg.arg0, Reg.arg1, Reg.arg2, Reg.seed, Reg.kind, Reg.freq, Reg.nscale],
      (s.busWrite (regOffset r) 4 v).readReg r = v) ∧
    (∀ r ∈ [Reg.id, Reg.result, Reg.width, Reg.height], s.busWrite (regOffset r) 4 v = s) ∧
    (s.busWrite (regOffset .ctrl) 4 v).readReg .ctrl = v &&& 1#32 ∧
    (s.busWrite (regOffset .status) 4 v).readReg .status =
      (if v.getLsbD 1 then 0#32 else s.readReg .status) ∧
    (s.busWrite (regOffset .cmd) 4 v).readReg .cmd = 0#32 ∧
    (s.busWrite (regOffset .cmd) 4 v).cl = v ∧ (s.busWrite (regOffset .cmd) 4 v).busy = true ∧
    (∀ r r' : Reg, r' ≠ r → r ≠ .cmd → (s.busWrite (regOffset r) 4 v).readReg r' = s.readReg r') ∧
    (∀ r' : Reg, r' ≠ .status → (s.busWrite (regOffset .cmd) 4 v).readReg r' = s.readReg r') ∧
    (∀ (r : Reg) (i : Nat), (s.busWrite (regOffset r) 4 v).canvasByte i = s.canvasByte i) ∧
    (∀ r : Reg, r ≠ .cmd → let t := s.busWrite (regOffset r) 4 v;
      t.busy = s.busy ∧ t.cl = s.cl ∧ t.canvas = s.canvas ∧ t.faults = s.faults ∧ t.block = s.block ∧
        t.scan = s.scan ∧ t.resets = s.resets ∧ t.draws = s.draws ∧ t.polls = s.polls ∧ s.SameHost t) ∧
    (let t := s.busWrite (regOffset .cmd) 4 v;
      t = { s with cl := v, busy := true, polls := t.polls, draws := t.draws }) ∧
    ∀ i, i < s.cells → s.cells ≤ 2 ^ 20 → let t := s.busWrite (cellAddr i) 1 v;
      t = { s with canvas := t.canvas } ∧ (∀ r : Reg, t.readReg r = s.readReg r) ∧
        ∀ j, t.canvasByte j = if j = i then v.setWidth 8 else s.canvasByte j

/-- 20_memory.md R61, R62, R63: which accesses are performed while BUSY = 0, and that every other one is a
BusError record and is not performed. -/
def Obligations.BusAccessIsPerformedOrIsABusError : Prop :=
  ∀ (s : State) (a : BusAddr) (n : Nat), s.busy = false →
    if a.toNat < 0x38 ∧ n = 4 ∧ a.toNat % 4 = 0 then
      ∃ r : Reg, regOffset r = a ∧ s.busRead a n = (s, some (s.readReg r)) ∧
        ∀ v, s.busWrite a n v = s.writeReg r v
    else if 0x100000 ≤ a.toNat ∧ a.toNat < 0x100000 + s.width * s.height ∧ n = 1 then
      s.busRead a n = (s, some ((s.canvasByte (a.toNat - 0x100000)).setWidth 32)) ∧
      ∀ v : Word, s.busWrite a n v = s.setCanvasByte (a.toNat - 0x100000) (v.setWidth 8)
    else
      s.busRead a n = ({ s with faults := faultInsert (.busError a) s.faults }, none) ∧
      ∀ v, s.busWrite a n v = { s with faults := faultInsert (.busError a) s.faults }

/-- 70_reset_and_hazards.md R315: while BUSY = 1 the only access with a defined effect is a 32-bit STATUS read;
every other one is a HazardAccess record and is not performed, an access of the right form to a register or a canvas
byte being nothing but that record. -/
def Obligations.BusyHazardRecordsEveryOtherAccess : Prop :=
  ∀ s : State, s.busy = true →
    (s.busRead 0x000004#24 4 = (s, some (s.readReg .status)) ∧ (s.readReg .status).getLsbD 0 = true) ∧
    (∀ (a : BusAddr) (n : Nat), ¬(a = 0x000004#24 ∧ n = 4) →
      ∃ fs, s.busRead a n = ({ s with faults := fs }, none) ∧ .hazardAccess a ∈ fs ∧ (∀ f ∈ s.faults, f ∈ fs) ∧
        ((s.target a n).isSome = true → fs = faultInsert (.hazardAccess a) s.faults)) ∧
    ∀ (a : BusAddr) (n : Nat) (v : Word),
      ∃ fs, s.busWrite a n v = { s with faults := fs } ∧ .hazardAccess a ∈ fs ∧ (∀ f ∈ s.faults, f ∈ fs) ∧
        ((s.target a n).isSome = true → fs = faultInsert (.hazardAccess a) s.faults)

/-- While a command is pending, no host step changes a register, the latch or the canvas (20_memory.md: a latched
command cannot be changed; 70_reset_and_hazards.md: the hazard rule); only a reset does. -/
def Obligations.PendingCommandIsShieldedFromTheHost : Prop :=
  ∀ (s t : State), s.busy = true → s.engineTurn = false → step s = .next t →
    (∃ rest, s.program = .platformReset :: rest) ∨ s.SameBlock t

/-- 10_state.md R46: the fault set is initially empty and never cleared: every step keeps every record, and what
is recorded is what the access adds. -/
def Obligations.FaultRecordsAreNeverCleared : Prop :=
  State.reset.faults = [] ∧
  (∀ s t : State, step s = .next t → ∀ f ∈ s.faults, f ∈ t.faults) ∧
  (∀ s t : State, step s = .next t → s.engineTurn = true → t.faults = s.faults) ∧
  ∀ (f g : FaultRecord) (l : List FaultRecord), g ∈ faultInsert f l ↔ g = f ∨ g ∈ l

/-- 10_state.md R22, R37 and R38: ID is ID_VALUE (by default 0x46474131), WIDTH and HEIGHT hold W and H (by default
128 and 64), and nothing changes them: no write, no step; nor any other parameter of the instance (00_scope.md). -/
def Obligations.IdWidthHeightNeverChange : Prop :=
  (∀ s : State, s.readReg .id = s.block.idValue ∧ s.readReg .width = BitVec.ofNat 32 s.width ∧
    s.readReg .height = BitVec.ofNat 32 s.height) ∧
  State.reset.readReg .width = 128#32 ∧ State.reset.readReg .height = 64#32 ∧
  State.reset.readReg .id = 0x46474131#32 ∧
  (∀ (s : State) (v : Word), s.writeReg .id v = s ∧ s.writeReg .width v = s ∧ s.writeReg .height v = s) ∧
  ∀ s t : State, step s = .next t → t.width = s.width ∧ t.height = s.height ∧ t.block = s.block

/-! ## The host's procedures -/

/-- 30_encoding.md R97: the pseudo-instructions and their expansions; `wait` repeats `rd STATUS` until bit 0 of
the value read is 0. -/
def Obligations.PseudoInstructionsExpand : Prop :=
  (∀ m : Instr, (Stmt.doCmd m).expand = (Stmt.cmd m).expand ++ Stmt.wait.expand) ∧
  (∀ s, (Stmt.prng s).expand = assemble [.wr .arg0 s, .doCmd .prng, .rd .result]) ∧
  (∀ x y s, (Stmt.noise x y s).expand =
    assemble [.wr .arg0 x, .wr .arg1 y, .wr .arg2 s, .doCmd .noise, .rd .result]) ∧
  (∀ a, (Stmt.sine a).expand = assemble [.wr .arg0 a, .doCmd .sine, .rd .result]) ∧
  (∀ x y, (Stmt.eval x y).expand = assemble [.wr .arg0 x, .wr .arg1 y, .doCmd .eval, .rd .result]) ∧
  Stmt.clrerr.expand = assemble [.wr .status 0x00000002#32] ∧
  (∀ a b c d e, (Stmt.params a b c d e).expand =
    assemble [.wr .seed a, .wr .kind b, .wr .freq c, .wr .nscale d, .wr .ctrl e]) ∧
  ∀ (s : State) (rest : List HostOp), s.program = .wait :: rest →
    (hostStep s).received = (s.busRead 0x000004#24 4).2 :: s.received ∧
    (hostStep s).program = (if (s.readReg .status).getLsbD 0 then .wait :: rest else rest)

/-- 49_host_animator.md R253: the order of a tick, the count, and the mutation due after every 30th frame (the
tick on which the count wraps to 0 is left free, log 11). -/
def Obligations.TickRendersDisplaysCountsAndMutates : Prop :=
  (∀ time : Word, expandProcedure .tick time =
    [.write 0x000008#24 4 0x00000007#32, .wait, .call .display, .compute .countFrame]) ∧
  ∀ (s : State) (rest : List HostOp), s.engineTurn = false → s.program = .compute .countFrame :: rest →
    ∃ t, step s = .next t ∧ t.frameCount = s.frameCount + 1#32 ∧
      (t.frameCount ≠ 0#32 →
        t.program = if t.frameCount.toNat % 30 = 0 then .call .mutate :: rest else rest)

/-- 49_host_animator.md R260 and R261: from an idle block, the procedure leaves KIND ± 1 wrapping mod 10
in finitely many steps, and nothing else of the block changes. -/
def Obligations.NextAndPreviousPatternWrapModTen : Prop :=
  ∀ (s : State) (rest : List HostOp), s.busy = false →
    (s.program = .call .nextPattern :: rest → ∃ k t, Host.Core.run Sys2Proof.core k s = .next t ∧
      t.kind.toNat = (s.kind.toNat + 1) % 10 ∧ t.program = rest ∧ s.SameBlock { t with kind := s.kind }) ∧
    (s.program = .call .previousPattern :: rest → ∃ k t, Host.Core.run Sys2Proof.core k s = .next t ∧
      t.kind.toNat = (s.kind.toNat + 9) % 10 ∧ t.program = rest ∧ s.SameBlock { t with kind := s.kind }) ∧
    kindPlus 9#32 1 = 0#32 ∧ kindPlus 0#32 9 = 9#32

/-- 49_host_animator.md, randomize: from an idle block it sets SEED to the time read (a free value; which slot it has
is the model's, log 20), and KIND and FREQ from it; NSCALE, CTRL and frame_count are unchanged. -/
def Obligations.RandomizeSetsSeedKindAndFrequency : Prop :=
  (∀ (s : State) (rest : List HostOp), s.busy = false → s.program = .call .randomize :: rest →
    ∃ k t, Host.Core.run Sys2Proof.core k s = .next t ∧ t.program = rest ∧
      t.seed = Config.freeWord s.draws ∧ t.kind.toNat = t.seed.toNat % 10 ∧
      t.freq = fadd 0x3F000000#32 (fdiv (cvtF32 ((t.seed.toNat % 100 : Nat) : Int)) 0x42480000#32) ∧
      t.frameCount = s.frameCount ∧ s.SameBlock { t with seed := s.seed, kind := s.kind, freq := s.freq }) ∧
  kindPlus 42#32 0 = 2#32 ∧ frequencyOf 42#32 = 0x3FAB851E#32

/-- 49_host_animator.md, startup: after reset, the host writes SEED with the time read (a free value; which slot it
has is the model's, log 20) and sets frame_count to 0; KIND, FREQ, NSCALE and CTRL hold the source's defaults and are not
written. That the reset is an entry of the host's program, which outlives it, is the model's (log 15). -/
def Obligations.StartupWritesTheSeed : Prop :=
  ∀ (s : State) (rest : List HostOp), s.program = .platformReset :: .call .startup :: rest →
    s.engineTurn = false →
    ∃ k t, Host.Core.run Sys2Proof.core k s = .next t ∧ t.program = rest ∧ t.seed = Config.freeWord s.draws ∧
      t.frameCount = 0#32 ∧ t.kind = 0#32 ∧ t.freq = 0x3F800000#32 ∧ t.nscale = 0x3D4CCCCD#32 ∧ t.invert = false

/-- 49_host_animator.md, the display: from an idle block the host reads every canvas byte in index order into its
grid, on where the byte is the open DISPLAY_ON_VALUE (log 12). -/
def Obligations.DisplayShowsEveryCanvasByte : Prop :=
  ∀ (s : State) (rest : List HostOp), s.busy = false → s.cells ≤ 2 ^ 20 → s.program = .call .display :: rest →
    ∃ k t, Host.Core.run Sys2Proof.core k s = .next t ∧ t.program = rest ∧ s.SameBlock t ∧ t.faults = s.faults ∧
      t.screen = (List.range s.cells).map fun i => s.canvasByte i == displayOnValue

/-- 49_host_animator.md, manual frequency: from an idle block, one increase or decrease leaves FREQ one step of
0.1 away, clamped, and within [0.1, 4.0] whatever it was before, a NaN included. -/
def Obligations.ManualFrequencyStaysInBounds : Prop :=
  (∀ (s : State) (rest : List HostOp) (up : Bool), s.busy = false →
    s.program = .call (if up then .increaseFrequency else .decreaseFrequency) :: rest →
    ∃ k t, Host.Core.run Sys2Proof.core k s = .next t ∧ t.program = rest ∧
      t.freq = clampFrequency (if up then fadd s.freq 0x3DCCCCCD#32 else fsub s.freq 0x3DCCCCCD#32) ∧
      fle 0x3DCCCCCD#32 t.freq = true ∧ fle t.freq 0x40800000#32 = true ∧
      s.SameBlock { t with freq := s.freq }) ∧
  (∀ f : F32, fle 0x3DCCCCCD#32 f = true → fle f 0x40800000#32 = true → clampFrequency f = f) ∧
  (∀ f : F32, flt 0x40800000#32 f = true → clampFrequency f = 0x40800000#32) ∧
  (∀ f : F32, fle 0x3DCCCCCD#32 f = false → clampFrequency f = 0x3DCCCCCD#32)

/-- 49_host_animator.md, the evolution ranges (derived there): every frequency a mutation or randomize sets is in
[0.5, 2.48] and every noise scale in [0, 0.049], ends reached; every kind a mutation sets is below 10; and the
formulas they are values of. -/
def Obligations.EvolutionStaysInItsRanges : Prop :=
  (∀ r : Word,
    frequencyOf r = fadd 0x3F000000#32 (fdiv (cvtF32 ((r.toNat % 100 : Nat) : Int)) 0x42480000#32) ∧
    noiseScaleOf r = fdiv (cvtF32 ((r.toNat % 50 : Nat) : Int)) 0x447A0000#32 ∧
    fle 0x3F000000#32 (frequencyOf r) = true ∧ fle (frequencyOf r) 0x401EB852#32 = true ∧
    fle 0#32 (noiseScaleOf r) = true ∧ fle (noiseScaleOf r) 0x3D48B439#32 = true ∧
    (mutatedKind r).toNat < 10 ∧ (mutatedKind r).toNat = r.toNat / 100 % 10) ∧
  frequencyOf 0#32 = 0x3F000000#32 ∧ frequencyOf 99#32 = 0x401EB852#32 ∧ noiseScaleOf 49#32 = 0x3D48B439#32

/-- 49_host_animator.md, the mutation on the block, from an idle block with nothing waiting: in finitely many
steps, however the engine and the host interleave (log 3), the four decisions are made from the PRNG walk of
SEED + frame_count (the accesses that do it are the model's reading, log 13). -/
def Obligations.MutationSetsTheFourParameters : Prop :=
  ∀ (s : State) (rest : List HostOp), s.busy = false → s.program = .call .mutate :: rest →
    let s0 := s.seed + s.frameCount
    let r1 := xorshift32 s0
    let r2 := xorshift32 r1
    let r3 := xorshift32 r2
    let r4 := xorshift32 r3
    ∃ k t, Host.Core.run Sys2Proof.core k s = .next t ∧ t.busy = false ∧ t.program = rest ∧
      t.kind = (if r1.toNat % 100 < 20 then BitVec.ofNat 32 (r1.toNat / 100 % 10) else s.kind) ∧
      t.freq = fadd 0x3F000000#32 (fdiv (cvtF32 ((r2.toNat % 100 : Nat) : Int)) 0x42480000#32) ∧
      t.nscale = fdiv (cvtF32 ((r3.toNat % 50 : Nat) : Int)) 0x447A0000#32 ∧
      t.invert = (if r4.toNat % 100 < 10 then !s.invert else s.invert) ∧
      t.seed = s.seed ∧ t.arg0 = r4 ∧ t.result = r4 ∧ t.canvas = s.canvas ∧ t.faults = s.faults ∧
      t.frameCount = s.frameCount
end

