-- ==== Sys2Proof/Laws/Bus.lean ====
section
/-! SUPPORT. What a host access reaches, what it does while BUSY = 0 and while BUSY = 1, and the bits of STATUS. -/

namespace Sys2Proof.Machine

/-! ## The bits of STATUS -/

theorem State.statusWord_toNat (s : State) :
    s.statusWord.toNat = s.errCode.toNat * 16 + s.err.toNat * 2 + s.busy.toNat := by
  unfold State.statusWord
  generalize s.errCode = e
  generalize s.err = r
  generalize s.busy = b
  revert e r b
  decide

theorem State.statusWord_getLsbD (s : State) (k : Nat) : s.statusWord.getLsbD k =
    if k = 0 then s.busy else if k = 1 then s.err else if 4 ≤ k ∧ k < 8 then s.errCode.getLsbD (k - 4) else false := by
  by_cases hk : k < 8
  · unfold State.statusWord
    generalize s.errCode = e
    generalize s.err = r
    generalize s.busy = b
    revert e r b
    interval_cases k <;> decide
  · rw [if_neg (by omega), if_neg (by omega), if_neg (by omega)]
    rw [← BitVec.testBit_toNat]
    apply Nat.testBit_lt_two_pow
    have h1 := s.errCode.isLt
    have h2 := s.err.toNat_le
    have h3 := s.busy.toNat_le
    rw [State.statusWord_toNat]
    have h4 : 2 ^ 8 ≤ 2 ^ k := Nat.pow_le_pow_right (by omega) (by omega)
    omega

theorem State.statusWord_bit0 (s : State) : s.statusWord.getLsbD 0 = s.busy := by
  rw [State.statusWord_getLsbD, if_pos rfl]

theorem State.statusWord_errCode (s : State) : s.statusWord.extractLsb' 4 4 = s.errCode := by
  ext i hi
  simp only [BitVec.getElem_extractLsb', State.statusWord_getLsbD]
  rw [if_neg (by omega), if_neg (by omega), if_pos (by omega)]
  simp [← BitVec.getLsbD_eq_getElem]

/-! ## What an access reaches -/

theorem regAt_regOffset (r : Reg) : regAt (regOffset r) = some r := by cases r <;> rfl

theorem regOffset_of_regAt {a : BusAddr} {r : Reg} (h : regAt a = some r) : regOffset r = a := by
  have := List.find?_some h
  simpa using this

theorem regAt_of_aligned {a : BusAddr} (h : a.toNat < 0x38) (h4 : a.toNat % 4 = 0) : ∃ r, regAt a = some r := by
  have key : ∀ n : Fin 0x38, n.val % 4 = 0 → (regAt (BitVec.ofNat 24 n.val)).isSome = true := by decide
  have := key ⟨a.toNat, h⟩ h4
  simp only [BitVec.ofNat_toNat, BitVec.setWidth_eq] at this
  exact Option.isSome_iff_exists.mp this

theorem regAt_of_misaligned {a : BusAddr} (h : a.toNat % 4 ≠ 0) : regAt a = none := by
  cases hr : regAt a with
  | none => rfl
  | some r =>
    exfalso
    rw [← regOffset_of_regAt hr] at h
    cases r <;> exact h rfl

theorem State.target_reg (s : State) (r : Reg) : s.target (regOffset r) 4 = some (.reg r) := by cases r <;> rfl

theorem cellAddr_toNat {i : Nat} (h : i < 2 ^ 20) : (cellAddr i).toNat = canvasBase + i := by
  simp only [cellAddr, BitVec.toNat_ofNat, canvasBase]; omega

theorem State.target_cell (s : State) {i : Nat} (hi : i < s.cells) (hc : s.cells ≤ 2 ^ 20) :
    s.target (cellAddr i) 1 = some (.cell i) := by
  have ha := cellAddr_toNat (i := i) (by omega)
  have hb : ¬ canvasBase + i < regWindowEnd := by simp only [canvasBase, regWindowEnd]; omega
  have hn : canvasBase ≤ canvasBase + i ∧ canvasBase + i < canvasBase + s.cells ∧ 1 = 1 := ⟨by omega, by omega, rfl⟩
  simp only [State.target, ha, hb, if_false, hn, and_self, if_true, Nat.add_sub_cancel_left]

theorem State.target_none (s : State) {a : BusAddr} {n : Nat}
    (hr : ¬(a.toNat < 0x38 ∧ n = 4 ∧ a.toNat % 4 = 0))
    (hc : ¬(0x100000 ≤ a.toNat ∧ a.toNat < 0x100000 + s.cells ∧ n = 1)) : s.target a n = none := by
  unfold State.target
  split
  · rename_i h
    split
    · rw [regAt_of_misaligned (fun h4 => hr ⟨h, ‹_›, h4⟩)]; rfl
    · rfl
  · exact if_neg hc

/-! ## What an access does -/

theorem State.busRead_reg (s : State) (r : Reg) (h : s.busy = false) :
    s.busRead (regOffset r) 4 = (s, some (s.readReg r)) := by
  unfold State.busRead; rw [s.target_reg r]; simp [h]

theorem State.busWrite_reg (s : State) (r : Reg) (v : Word) (h : s.busy = false) :
    s.busWrite (regOffset r) 4 v = s.writeReg r v := by
  unfold State.busWrite; rw [s.target_reg r]; simp [h]

theorem State.busRead_cell (s : State) {i : Nat} (h : s.busy = false) (hi : i < s.cells) (hc : s.cells ≤ 2 ^ 20) :
    s.busRead (cellAddr i) 1 = (s, some (zext32 (s.canvasByte i))) := by
  unfold State.busRead; rw [s.target_cell hi hc]; simp [h]

theorem State.busWrite_cell (s : State) {i : Nat} (v : Word) (h : s.busy = false) (hi : i < s.cells)
    (hc : s.cells ≤ 2 ^ 20) : s.busWrite (cellAddr i) 1 v = s.setCanvasByte i (v.setWidth 8) := by
  unfold State.busWrite; rw [s.target_cell hi hc]; simp [h]

/-- A 32-bit STATUS read is always performed (70_reset_and_hazards.md R315). -/
theorem State.busRead_status (s : State) : s.busRead (regOffset .status) 4 = (s, some s.statusWord) := by
  unfold State.busRead; rw [s.target_reg .status]; simp [isStatusRead, State.readReg]

theorem State.busWrite_busy (s : State) (a : BusAddr) (n : Nat) (v : Word) (h : s.busy = true) :
    s.busWrite a n v = s.recordFault (.hazardAccess a) := by simp [State.busWrite, h]

theorem State.busRead_busy (s : State) {a : BusAddr} {n : Nat} (h : s.busy = true) (hs : isStatusRead a n = false) :
    s.busRead a n = (s.recordFault (.hazardAccess a), none) := by simp [State.busRead, h, hs]

end Sys2Proof.Machine
end

