-- ==== Sys2Proof/Laws/State.lean ====
section
/-! SUPPORT. What each named update of the state does to each field: one lemma per field per update. -/

namespace Sys2Proof.Machine

/-! ### finish -/

@[simp] theorem State.finish_busy (s : State) : (s.finish).busy = false := rfl
@[simp] theorem State.finish_err (s : State) : (s.finish).err = s.err := rfl
@[simp] theorem State.finish_errCode (s : State) : (s.finish).errCode = s.errCode := rfl
@[simp] theorem State.finish_cl (s : State) : (s.finish).cl = s.cl := rfl
@[simp] theorem State.finish_arg0 (s : State) : (s.finish).arg0 = s.arg0 := rfl
@[simp] theorem State.finish_arg1 (s : State) : (s.finish).arg1 = s.arg1 := rfl
@[simp] theorem State.finish_arg2 (s : State) : (s.finish).arg2 = s.arg2 := rfl
@[simp] theorem State.finish_result (s : State) : (s.finish).result = s.result := rfl
@[simp] theorem State.finish_seed (s : State) : (s.finish).seed = s.seed := rfl
@[simp] theorem State.finish_kind (s : State) : (s.finish).kind = s.kind := rfl
@[simp] theorem State.finish_freq (s : State) : (s.finish).freq = s.freq := rfl
@[simp] theorem State.finish_nscale (s : State) : (s.finish).nscale = s.nscale := rfl
@[simp] theorem State.finish_invert (s : State) : (s.finish).invert = s.invert := rfl
@[simp] theorem State.finish_width (s : State) : (s.finish).width = s.width := rfl
@[simp] theorem State.finish_height (s : State) : (s.finish).height = s.height := rfl
@[simp] theorem State.finish_block (s : State) : (s.finish).block = s.block := rfl
@[simp] theorem State.finish_canvas (s : State) : (s.finish).canvas = s.canvas := rfl
@[simp] theorem State.finish_scan (s : State) : (s.finish).scan = s.scan := rfl
@[simp] theorem State.finish_faults (s : State) : (s.finish).faults = s.faults := rfl
@[simp] theorem State.finish_resets (s : State) : (s.finish).resets = s.resets := rfl
@[simp] theorem State.finish_draws (s : State) : (s.finish).draws = s.draws := rfl
@[simp] theorem State.finish_polls (s : State) : (s.finish).polls = s.polls := rfl
@[simp] theorem State.finish_frameCount (s : State) : (s.finish).frameCount = s.frameCount := rfl
@[simp] theorem State.finish_program (s : State) : (s.finish).program = s.program := rfl
@[simp] theorem State.finish_received (s : State) : (s.finish).received = s.received := rfl
@[simp] theorem State.finish_kept (s : State) : (s.finish).kept = s.kept := rfl
@[simp] theorem State.finish_screen (s : State) : (s.finish).screen = s.screen := rfl

/-! ### raiseCmdError -/

@[simp] theorem State.raiseCmdError_busy (s : State) (e : CmdError) : (s.raiseCmdError e).busy = false := rfl
@[simp] theorem State.raiseCmdError_err (s : State) (e : CmdError) : (s.raiseCmdError e).err = true := rfl
@[simp] theorem State.raiseCmdError_errCode (s : State) (e : CmdError) : (s.raiseCmdError e).errCode = errCodeOf e := rfl
@[simp] theorem State.raiseCmdError_cl (s : State) (e : CmdError) : (s.raiseCmdError e).cl = s.cl := rfl
@[simp] theorem State.raiseCmdError_arg0 (s : State) (e : CmdError) : (s.raiseCmdError e).arg0 = s.arg0 := rfl
@[simp] theorem State.raiseCmdError_arg1 (s : State) (e : CmdError) : (s.raiseCmdError e).arg1 = s.arg1 := rfl
@[simp] theorem State.raiseCmdError_arg2 (s : State) (e : CmdError) : (s.raiseCmdError e).arg2 = s.arg2 := rfl
@[simp] theorem State.raiseCmdError_result (s : State) (e : CmdError) : (s.raiseCmdError e).result = s.result := rfl
@[simp] theorem State.raiseCmdError_seed (s : State) (e : CmdError) : (s.raiseCmdError e).seed = s.seed := rfl
@[simp] theorem State.raiseCmdError_kind (s : State) (e : CmdError) : (s.raiseCmdError e).kind = s.kind := rfl
@[simp] theorem State.raiseCmdError_freq (s : State) (e : CmdError) : (s.raiseCmdError e).freq = s.freq := rfl
@[simp] theorem State.raiseCmdError_nscale (s : State) (e : CmdError) : (s.raiseCmdError e).nscale = s.nscale := rfl
@[simp] theorem State.raiseCmdError_invert (s : State) (e : CmdError) : (s.raiseCmdError e).invert = s.invert := rfl
@[simp] theorem State.raiseCmdError_width (s : State) (e : CmdError) : (s.raiseCmdError e).width = s.width := rfl
@[simp] theorem State.raiseCmdError_height (s : State) (e : CmdError) : (s.raiseCmdError e).height = s.height := rfl
@[simp] theorem State.raiseCmdError_block (s : State) (e : CmdError) : (s.raiseCmdError e).block = s.block := rfl
@[simp] theorem State.raiseCmdError_canvas (s : State) (e : CmdError) : (s.raiseCmdError e).canvas = s.canvas := rfl
@[simp] theorem State.raiseCmdError_scan (s : State) (e : CmdError) : (s.raiseCmdError e).scan = s.scan := rfl
@[simp] theorem State.raiseCmdError_faults (s : State) (e : CmdError) : (s.raiseCmdError e).faults = s.faults := rfl
@[simp] theorem State.raiseCmdError_resets (s : State) (e : CmdError) : (s.raiseCmdError e).resets = s.resets := rfl
@[simp] theorem State.raiseCmdError_draws (s : State) (e : CmdError) : (s.raiseCmdError e).draws = s.draws := rfl
@[simp] theorem State.raiseCmdError_polls (s : State) (e : CmdError) : (s.raiseCmdError e).polls = s.polls := rfl
@[simp] theorem State.raiseCmdError_frameCount (s : State) (e : CmdError) : (s.raiseCmdError e).frameCount = s.frameCount := rfl
@[simp] theorem State.raiseCmdError_program (s : State) (e : CmdError) : (s.raiseCmdError e).program = s.program := rfl
@[simp] theorem State.raiseCmdError_received (s : State) (e : CmdError) : (s.raiseCmdError e).received = s.received := rfl
@[simp] theorem State.raiseCmdError_kept (s : State) (e : CmdError) : (s.raiseCmdError e).kept = s.kept := rfl
@[simp] theorem State.raiseCmdError_screen (s : State) (e : CmdError) : (s.raiseCmdError e).screen = s.screen := rfl

/-! ### setCanvasByte -/

@[simp] theorem State.setCanvasByte_busy (s : State) (i : Nat) (b : Byte) : (s.setCanvasByte i b).busy = s.busy := rfl
@[simp] theorem State.setCanvasByte_err (s : State) (i : Nat) (b : Byte) : (s.setCanvasByte i b).err = s.err := rfl
@[simp] theorem State.setCanvasByte_errCode (s : State) (i : Nat) (b : Byte) : (s.setCanvasByte i b).errCode = s.errCode := rfl
@[simp] theorem State.setCanvasByte_cl (s : State) (i : Nat) (b : Byte) : (s.setCanvasByte i b).cl = s.cl := rfl
@[simp] theorem State.setCanvasByte_arg0 (s : State) (i : Nat) (b : Byte) : (s.setCanvasByte i b).arg0 = s.arg0 := rfl
@[simp] theorem State.setCanvasByte_arg1 (s : State) (i : Nat) (b : Byte) : (s.setCanvasByte i b).arg1 = s.arg1 := rfl
@[simp] theorem State.setCanvasByte_arg2 (s : State) (i : Nat) (b : Byte) : (s.setCanvasByte i b).arg2 = s.arg2 := rfl
@[simp] theorem State.setCanvasByte_result (s : State) (i : Nat) (b : Byte) : (s.setCanvasByte i b).result = s.result := rfl
@[simp] theorem State.setCanvasByte_seed (s : State) (i : Nat) (b : Byte) : (s.setCanvasByte i b).seed = s.seed := rfl
@[simp] theorem State.setCanvasByte_kind (s : State) (i : Nat) (b : Byte) : (s.setCanvasByte i b).kind = s.kind := rfl
@[simp] theorem State.setCanvasByte_freq (s : State) (i : Nat) (b : Byte) : (s.setCanvasByte i b).freq = s.freq := rfl
@[simp] theorem State.setCanvasByte_nscale (s : State) (i : Nat) (b : Byte) : (s.setCanvasByte i b).nscale = s.nscale := rfl
@[simp] theorem State.setCanvasByte_invert (s : State) (i : Nat) (b : Byte) : (s.setCanvasByte i b).invert = s.invert := rfl
@[simp] theorem State.setCanvasByte_width (s : State) (i : Nat) (b : Byte) : (s.setCanvasByte i b).width = s.width := rfl
@[simp] theorem State.setCanvasByte_height (s : State) (i : Nat) (b : Byte) : (s.setCanvasByte i b).height = s.height := rfl
@[simp] theorem State.setCanvasByte_block (s : State) (i : Nat) (b : Byte) : (s.setCanvasByte i b).block = s.block := rfl
@[simp] theorem State.setCanvasByte_canvas (s : State) (i : Nat) (b : Byte) : (s.setCanvasByte i b).canvas = cellPut i b s.canvas := rfl
@[simp] theorem State.setCanvasByte_scan (s : State) (i : Nat) (b : Byte) : (s.setCanvasByte i b).scan = s.scan := rfl
@[simp] theorem State.setCanvasByte_faults (s : State) (i : Nat) (b : Byte) : (s.setCanvasByte i b).faults = s.faults := rfl
@[simp] theorem State.setCanvasByte_resets (s : State) (i : Nat) (b : Byte) : (s.setCanvasByte i b).resets = s.resets := rfl
@[simp] theorem State.setCanvasByte_draws (s : State) (i : Nat) (b : Byte) : (s.setCanvasByte i b).draws = s.draws := rfl
@[simp] theorem State.setCanvasByte_polls (s : State) (i : Nat) (b : Byte) : (s.setCanvasByte i b).polls = s.polls := rfl
@[simp] theorem State.setCanvasByte_frameCount (s : State) (i : Nat) (b : Byte) : (s.setCanvasByte i b).frameCount = s.frameCount := rfl
@[simp] theorem State.setCanvasByte_program (s : State) (i : Nat) (b : Byte) : (s.setCanvasByte i b).program = s.program := rfl
@[simp] theorem State.setCanvasByte_received (s : State) (i : Nat) (b : Byte) : (s.setCanvasByte i b).received = s.received := rfl
@[simp] theorem State.setCanvasByte_kept (s : State) (i : Nat) (b : Byte) : (s.setCanvasByte i b).kept = s.kept := rfl
@[simp] theorem State.setCanvasByte_screen (s : State) (i : Nat) (b : Byte) : (s.setCanvasByte i b).screen = s.screen := rfl

/-! ### setCanvasBytes -/

@[simp] theorem State.setCanvasBytes_busy (s : State) (bs : List Byte) : (s.setCanvasBytes bs).busy = s.busy := rfl
@[simp] theorem State.setCanvasBytes_err (s : State) (bs : List Byte) : (s.setCanvasBytes bs).err = s.err := rfl
@[simp] theorem State.setCanvasBytes_errCode (s : State) (bs : List Byte) : (s.setCanvasBytes bs).errCode = s.errCode := rfl
@[simp] theorem State.setCanvasBytes_cl (s : State) (bs : List Byte) : (s.setCanvasBytes bs).cl = s.cl := rfl
@[simp] theorem State.setCanvasBytes_arg0 (s : State) (bs : List Byte) : (s.setCanvasBytes bs).arg0 = s.arg0 := rfl
@[simp] theorem State.setCanvasBytes_arg1 (s : State) (bs : List Byte) : (s.setCanvasBytes bs).arg1 = s.arg1 := rfl
@[simp] theorem State.setCanvasBytes_arg2 (s : State) (bs : List Byte) : (s.setCanvasBytes bs).arg2 = s.arg2 := rfl
@[simp] theorem State.setCanvasBytes_result (s : State) (bs : List Byte) : (s.setCanvasBytes bs).result = s.result := rfl
@[simp] theorem State.setCanvasBytes_seed (s : State) (bs : List Byte) : (s.setCanvasBytes bs).seed = s.seed := rfl
@[simp] theorem State.setCanvasBytes_kind (s : State) (bs : List Byte) : (s.setCanvasBytes bs).kind = s.kind := rfl
@[simp] theorem State.setCanvasBytes_freq (s : State) (bs : List Byte) : (s.setCanvasBytes bs).freq = s.freq := rfl
@[simp] theorem State.setCanvasBytes_nscale (s : State) (bs : List Byte) : (s.setCanvasBytes bs).nscale = s.nscale := rfl
@[simp] theorem State.setCanvasBytes_invert (s : State) (bs : List Byte) : (s.setCanvasBytes bs).invert = s.invert := rfl
@[simp] theorem State.setCanvasBytes_width (s : State) (bs : List Byte) : (s.setCanvasBytes bs).width = s.width := rfl
@[simp] theorem State.setCanvasBytes_height (s : State) (bs : List Byte) : (s.setCanvasBytes bs).height = s.height := rfl
@[simp] theorem State.setCanvasBytes_block (s : State) (bs : List Byte) : (s.setCanvasBytes bs).block = s.block := rfl
@[simp] theorem State.setCanvasBytes_canvas (s : State) (bs : List Byte) : (s.setCanvasBytes bs).canvas = cellsFrom 0 bs ++ s.canvas.filter fun c => decide (bs.length ≤ c.1) := rfl
@[simp] theorem State.setCanvasBytes_scan (s : State) (bs : List Byte) : (s.setCanvasBytes bs).scan = s.scan := rfl
@[simp] theorem State.setCanvasBytes_faults (s : State) (bs : List Byte) : (s.setCanvasBytes bs).faults = s.faults := rfl
@[simp] theorem State.setCanvasBytes_resets (s : State) (bs : List Byte) : (s.setCanvasBytes bs).resets = s.resets := rfl
@[simp] theorem State.setCanvasBytes_draws (s : State) (bs : List Byte) : (s.setCanvasBytes bs).draws = s.draws := rfl
@[simp] theorem State.setCanvasBytes_polls (s : State) (bs : List Byte) : (s.setCanvasBytes bs).polls = s.polls := rfl
@[simp] theorem State.setCanvasBytes_frameCount (s : State) (bs : List Byte) : (s.setCanvasBytes bs).frameCount = s.frameCount := rfl
@[simp] theorem State.setCanvasBytes_program (s : State) (bs : List Byte) : (s.setCanvasBytes bs).program = s.program := rfl
@[simp] theorem State.setCanvasBytes_received (s : State) (bs : List Byte) : (s.setCanvasBytes bs).received = s.received := rfl
@[simp] theorem State.setCanvasBytes_kept (s : State) (bs : List Byte) : (s.setCanvasBytes bs).kept = s.kept := rfl
@[simp] theorem State.setCanvasBytes_screen (s : State) (bs : List Byte) : (s.setCanvasBytes bs).screen = s.screen := rfl

/-! ### issue -/

@[simp] theorem State.issue_busy (s : State) (v : Word) : (s.issue v).busy = true := rfl
@[simp] theorem State.issue_err (s : State) (v : Word) : (s.issue v).err = s.err := rfl
@[simp] theorem State.issue_errCode (s : State) (v : Word) : (s.issue v).errCode = s.errCode := rfl
@[simp] theorem State.issue_cl (s : State) (v : Word) : (s.issue v).cl = v := rfl
@[simp] theorem State.issue_arg0 (s : State) (v : Word) : (s.issue v).arg0 = s.arg0 := rfl
@[simp] theorem State.issue_arg1 (s : State) (v : Word) : (s.issue v).arg1 = s.arg1 := rfl
@[simp] theorem State.issue_arg2 (s : State) (v : Word) : (s.issue v).arg2 = s.arg2 := rfl
@[simp] theorem State.issue_result (s : State) (v : Word) : (s.issue v).result = s.result := rfl
@[simp] theorem State.issue_seed (s : State) (v : Word) : (s.issue v).seed = s.seed := rfl
@[simp] theorem State.issue_kind (s : State) (v : Word) : (s.issue v).kind = s.kind := rfl
@[simp] theorem State.issue_freq (s : State) (v : Word) : (s.issue v).freq = s.freq := rfl
@[simp] theorem State.issue_nscale (s : State) (v : Word) : (s.issue v).nscale = s.nscale := rfl
@[simp] theorem State.issue_invert (s : State) (v : Word) : (s.issue v).invert = s.invert := rfl
@[simp] theorem State.issue_width (s : State) (v : Word) : (s.issue v).width = s.width := rfl
@[simp] theorem State.issue_height (s : State) (v : Word) : (s.issue v).height = s.height := rfl
@[simp] theorem State.issue_block (s : State) (v : Word) : (s.issue v).block = s.block := rfl
@[simp] theorem State.issue_canvas (s : State) (v : Word) : (s.issue v).canvas = s.canvas := rfl
@[simp] theorem State.issue_scan (s : State) (v : Word) : (s.issue v).scan = s.scan := rfl
@[simp] theorem State.issue_faults (s : State) (v : Word) : (s.issue v).faults = s.faults := rfl
@[simp] theorem State.issue_resets (s : State) (v : Word) : (s.issue v).resets = s.resets := rfl
@[simp] theorem State.issue_draws (s : State) (v : Word) : (s.issue v).draws = s.draws + 1 := rfl
@[simp] theorem State.issue_polls (s : State) (v : Word) : (s.issue v).polls = Config.freePolls s.draws := rfl
@[simp] theorem State.issue_frameCount (s : State) (v : Word) : (s.issue v).frameCount = s.frameCount := rfl
@[simp] theorem State.issue_program (s : State) (v : Word) : (s.issue v).program = s.program := rfl
@[simp] theorem State.issue_received (s : State) (v : Word) : (s.issue v).received = s.received := rfl
@[simp] theorem State.issue_kept (s : State) (v : Word) : (s.issue v).kept = s.kept := rfl
@[simp] theorem State.issue_screen (s : State) (v : Word) : (s.issue v).screen = s.screen := rfl

/-! ### recordFault -/

@[simp] theorem State.recordFault_busy (s : State) (f : FaultRecord) : (s.recordFault f).busy = s.busy := rfl
@[simp] theorem State.recordFault_err (s : State) (f : FaultRecord) : (s.recordFault f).err = s.err := rfl
@[simp] theorem State.recordFault_errCode (s : State) (f : FaultRecord) : (s.recordFault f).errCode = s.errCode := rfl
@[simp] theorem State.recordFault_cl (s : State) (f : FaultRecord) : (s.recordFault f).cl = s.cl := rfl
@[simp] theorem State.recordFault_arg0 (s : State) (f : FaultRecord) : (s.recordFault f).arg0 = s.arg0 := rfl
@[simp] theorem State.recordFault_arg1 (s : State) (f : FaultRecord) : (s.recordFault f).arg1 = s.arg1 := rfl
@[simp] theorem State.recordFault_arg2 (s : State) (f : FaultRecord) : (s.recordFault f).arg2 = s.arg2 := rfl
@[simp] theorem State.recordFault_result (s : State) (f : FaultRecord) : (s.recordFault f).result = s.result := rfl
@[simp] theorem State.recordFault_seed (s : State) (f : FaultRecord) : (s.recordFault f).seed = s.seed := rfl
@[simp] theorem State.recordFault_kind (s : State) (f : FaultRecord) : (s.recordFault f).kind = s.kind := rfl
@[simp] theorem State.recordFault_freq (s : State) (f : FaultRecord) : (s.recordFault f).freq = s.freq := rfl
@[simp] theorem State.recordFault_nscale (s : State) (f : FaultRecord) : (s.recordFault f).nscale = s.nscale := rfl
@[simp] theorem State.recordFault_invert (s : State) (f : FaultRecord) : (s.recordFault f).invert = s.invert := rfl
@[simp] theorem State.recordFault_width (s : State) (f : FaultRecord) : (s.recordFault f).width = s.width := rfl
@[simp] theorem State.recordFault_height (s : State) (f : FaultRecord) : (s.recordFault f).height = s.height := rfl
@[simp] theorem State.recordFault_block (s : State) (f : FaultRecord) : (s.recordFault f).block = s.block := rfl
@[simp] theorem State.recordFault_canvas (s : State) (f : FaultRecord) : (s.recordFault f).canvas = s.canvas := rfl
@[simp] theorem State.recordFault_scan (s : State) (f : FaultRecord) : (s.recordFault f).scan = s.scan := rfl
@[simp] theorem State.recordFault_faults (s : State) (f : FaultRecord) : (s.recordFault f).faults = faultInsert f s.faults := rfl
@[simp] theorem State.recordFault_resets (s : State) (f : FaultRecord) : (s.recordFault f).resets = s.resets := rfl
@[simp] theorem State.recordFault_draws (s : State) (f : FaultRecord) : (s.recordFault f).draws = s.draws := rfl
@[simp] theorem State.recordFault_polls (s : State) (f : FaultRecord) : (s.recordFault f).polls = s.polls := rfl
@[simp] theorem State.recordFault_frameCount (s : State) (f : FaultRecord) : (s.recordFault f).frameCount = s.frameCount := rfl
@[simp] theorem State.recordFault_program (s : State) (f : FaultRecord) : (s.recordFault f).program = s.program := rfl
@[simp] theorem State.recordFault_received (s : State) (f : FaultRecord) : (s.recordFault f).received = s.received := rfl
@[simp] theorem State.recordFault_kept (s : State) (f : FaultRecord) : (s.recordFault f).kept = s.kept := rfl
@[simp] theorem State.recordFault_screen (s : State) (f : FaultRecord) : (s.recordFault f).screen = s.screen := rfl

/-! ### prepend -/

@[simp] theorem State.prepend_busy (s : State) (ops : List HostOp) : (s.prepend ops).busy = s.busy := rfl
@[simp] theorem State.prepend_err (s : State) (ops : List HostOp) : (s.prepend ops).err = s.err := rfl
@[simp] theorem State.prepend_errCode (s : State) (ops : List HostOp) : (s.prepend ops).errCode = s.errCode := rfl
@[simp] theorem State.prepend_cl (s : State) (ops : List HostOp) : (s.prepend ops).cl = s.cl := rfl
@[simp] theorem State.prepend_arg0 (s : State) (ops : List HostOp) : (s.prepend ops).arg0 = s.arg0 := rfl
@[simp] theorem State.prepend_arg1 (s : State) (ops : List HostOp) : (s.prepend ops).arg1 = s.arg1 := rfl
@[simp] theorem State.prepend_arg2 (s : State) (ops : List HostOp) : (s.prepend ops).arg2 = s.arg2 := rfl
@[simp] theorem State.prepend_result (s : State) (ops : List HostOp) : (s.prepend ops).result = s.result := rfl
@[simp] theorem State.prepend_seed (s : State) (ops : List HostOp) : (s.prepend ops).seed = s.seed := rfl
@[simp] theorem State.prepend_kind (s : State) (ops : List HostOp) : (s.prepend ops).kind = s.kind := rfl
@[simp] theorem State.prepend_freq (s : State) (ops : List HostOp) : (s.prepend ops).freq = s.freq := rfl
@[simp] theorem State.prepend_nscale (s : State) (ops : List HostOp) : (s.prepend ops).nscale = s.nscale := rfl
@[simp] theorem State.prepend_invert (s : State) (ops : List HostOp) : (s.prepend ops).invert = s.invert := rfl
@[simp] theorem State.prepend_width (s : State) (ops : List HostOp) : (s.prepend ops).width = s.width := rfl
@[simp] theorem State.prepend_height (s : State) (ops : List HostOp) : (s.prepend ops).height = s.height := rfl
@[simp] theorem State.prepend_block (s : State) (ops : List HostOp) : (s.prepend ops).block = s.block := rfl
@[simp] theorem State.prepend_canvas (s : State) (ops : List HostOp) : (s.prepend ops).canvas = s.canvas := rfl
@[simp] theorem State.prepend_scan (s : State) (ops : List HostOp) : (s.prepend ops).scan = s.scan := rfl
@[simp] theorem State.prepend_faults (s : State) (ops : List HostOp) : (s.prepend ops).faults = s.faults := rfl
@[simp] theorem State.prepend_resets (s : State) (ops : List HostOp) : (s.prepend ops).resets = s.resets := rfl
@[simp] theorem State.prepend_draws (s : State) (ops : List HostOp) : (s.prepend ops).draws = s.draws := rfl
@[simp] theorem State.prepend_polls (s : State) (ops : List HostOp) : (s.prepend ops).polls = s.polls := rfl
@[simp] theorem State.prepend_frameCount (s : State) (ops : List HostOp) : (s.prepend ops).frameCount = s.frameCount := rfl
@[simp] theorem State.prepend_program (s : State) (ops : List HostOp) : (s.prepend ops).program = ops ++ s.program := rfl
@[simp] theorem State.prepend_received (s : State) (ops : List HostOp) : (s.prepend ops).received = s.received := rfl
@[simp] theorem State.prepend_kept (s : State) (ops : List HostOp) : (s.prepend ops).kept = s.kept := rfl
@[simp] theorem State.prepend_screen (s : State) (ops : List HostOp) : (s.prepend ops).screen = s.screen := rfl

/-! ### nextSlot -/

@[simp] theorem State.nextSlot_busy (s : State) : (s.nextSlot).busy = s.busy := rfl
@[simp] theorem State.nextSlot_err (s : State) : (s.nextSlot).err = s.err := rfl
@[simp] theorem State.nextSlot_errCode (s : State) : (s.nextSlot).errCode = s.errCode := rfl
@[simp] theorem State.nextSlot_cl (s : State) : (s.nextSlot).cl = s.cl := rfl
@[simp] theorem State.nextSlot_arg0 (s : State) : (s.nextSlot).arg0 = s.arg0 := rfl
@[simp] theorem State.nextSlot_arg1 (s : State) : (s.nextSlot).arg1 = s.arg1 := rfl
@[simp] theorem State.nextSlot_arg2 (s : State) : (s.nextSlot).arg2 = s.arg2 := rfl
@[simp] theorem State.nextSlot_result (s : State) : (s.nextSlot).result = s.result := rfl
@[simp] theorem State.nextSlot_seed (s : State) : (s.nextSlot).seed = s.seed := rfl
@[simp] theorem State.nextSlot_kind (s : State) : (s.nextSlot).kind = s.kind := rfl
@[simp] theorem State.nextSlot_freq (s : State) : (s.nextSlot).freq = s.freq := rfl
@[simp] theorem State.nextSlot_nscale (s : State) : (s.nextSlot).nscale = s.nscale := rfl
@[simp] theorem State.nextSlot_invert (s : State) : (s.nextSlot).invert = s.invert := rfl
@[simp] theorem State.nextSlot_width (s : State) : (s.nextSlot).width = s.width := rfl
@[simp] theorem State.nextSlot_height (s : State) : (s.nextSlot).height = s.height := rfl
@[simp] theorem State.nextSlot_block (s : State) : (s.nextSlot).block = s.block := rfl
@[simp] theorem State.nextSlot_canvas (s : State) : (s.nextSlot).canvas = s.canvas := rfl
@[simp] theorem State.nextSlot_scan (s : State) : (s.nextSlot).scan = s.scan := rfl
@[simp] theorem State.nextSlot_faults (s : State) : (s.nextSlot).faults = s.faults := rfl
@[simp] theorem State.nextSlot_resets (s : State) : (s.nextSlot).resets = s.resets := rfl
@[simp] theorem State.nextSlot_draws (s : State) : (s.nextSlot).draws = s.draws + 1 := rfl
@[simp] theorem State.nextSlot_polls (s : State) : (s.nextSlot).polls = s.polls := rfl
@[simp] theorem State.nextSlot_frameCount (s : State) : (s.nextSlot).frameCount = s.frameCount := rfl
@[simp] theorem State.nextSlot_program (s : State) : (s.nextSlot).program = s.program := rfl
@[simp] theorem State.nextSlot_received (s : State) : (s.nextSlot).received = s.received := rfl
@[simp] theorem State.nextSlot_kept (s : State) : (s.nextSlot).kept = s.kept := rfl
@[simp] theorem State.nextSlot_screen (s : State) : (s.nextSlot).screen = s.screen := rfl

/-! ### fillCanvas -/

@[simp] theorem State.fillCanvas_busy (s : State) : (s.fillCanvas).busy = s.busy := rfl
@[simp] theorem State.fillCanvas_err (s : State) : (s.fillCanvas).err = s.err := rfl
@[simp] theorem State.fillCanvas_errCode (s : State) : (s.fillCanvas).errCode = s.errCode := rfl
@[simp] theorem State.fillCanvas_cl (s : State) : (s.fillCanvas).cl = s.cl := rfl
@[simp] theorem State.fillCanvas_arg0 (s : State) : (s.fillCanvas).arg0 = s.arg0 := rfl
@[simp] theorem State.fillCanvas_arg1 (s : State) : (s.fillCanvas).arg1 = s.arg1 := rfl
@[simp] theorem State.fillCanvas_arg2 (s : State) : (s.fillCanvas).arg2 = s.arg2 := rfl
@[simp] theorem State.fillCanvas_result (s : State) : (s.fillCanvas).result = s.result := rfl
@[simp] theorem State.fillCanvas_seed (s : State) : (s.fillCanvas).seed = s.seed := rfl
@[simp] theorem State.fillCanvas_kind (s : State) : (s.fillCanvas).kind = s.kind := rfl
@[simp] theorem State.fillCanvas_freq (s : State) : (s.fillCanvas).freq = s.freq := rfl
@[simp] theorem State.fillCanvas_nscale (s : State) : (s.fillCanvas).nscale = s.nscale := rfl
@[simp] theorem State.fillCanvas_invert (s : State) : (s.fillCanvas).invert = s.invert := rfl
@[simp] theorem State.fillCanvas_width (s : State) : (s.fillCanvas).width = s.width := rfl
@[simp] theorem State.fillCanvas_height (s : State) : (s.fillCanvas).height = s.height := rfl
@[simp] theorem State.fillCanvas_block (s : State) : (s.fillCanvas).block = s.block := rfl
@[simp] theorem State.fillCanvas_scan (s : State) : (s.fillCanvas).scan = s.scan := rfl
@[simp] theorem State.fillCanvas_faults (s : State) : (s.fillCanvas).faults = s.faults := rfl
@[simp] theorem State.fillCanvas_resets (s : State) : (s.fillCanvas).resets = s.resets := rfl
@[simp] theorem State.fillCanvas_draws (s : State) : (s.fillCanvas).draws = s.draws + slotsPerPixel * s.cells := rfl
@[simp] theorem State.fillCanvas_polls (s : State) : (s.fillCanvas).polls = s.polls := rfl
@[simp] theorem State.fillCanvas_frameCount (s : State) : (s.fillCanvas).frameCount = s.frameCount := rfl
@[simp] theorem State.fillCanvas_program (s : State) : (s.fillCanvas).program = s.program := rfl
@[simp] theorem State.fillCanvas_received (s : State) : (s.fillCanvas).received = s.received := rfl
@[simp] theorem State.fillCanvas_kept (s : State) : (s.fillCanvas).kept = s.kept := rfl
@[simp] theorem State.fillCanvas_screen (s : State) : (s.fillCanvas).screen = s.screen := rfl

/-! ### ditherCanvas -/

@[simp] theorem State.ditherCanvas_busy (s : State) : (s.ditherCanvas).busy = s.busy := rfl
@[simp] theorem State.ditherCanvas_err (s : State) : (s.ditherCanvas).err = s.err := rfl
@[simp] theorem State.ditherCanvas_errCode (s : State) : (s.ditherCanvas).errCode = s.errCode := rfl
@[simp] theorem State.ditherCanvas_cl (s : State) : (s.ditherCanvas).cl = s.cl := rfl
@[simp] theorem State.ditherCanvas_arg0 (s : State) : (s.ditherCanvas).arg0 = s.arg0 := rfl
@[simp] theorem State.ditherCanvas_arg1 (s : State) : (s.ditherCanvas).arg1 = s.arg1 := rfl
@[simp] theorem State.ditherCanvas_arg2 (s : State) : (s.ditherCanvas).arg2 = s.arg2 := rfl
@[simp] theorem State.ditherCanvas_result (s : State) : (s.ditherCanvas).result = s.result := rfl
@[simp] theorem State.ditherCanvas_seed (s : State) : (s.ditherCanvas).seed = s.seed := rfl
@[simp] theorem State.ditherCanvas_kind (s : State) : (s.ditherCanvas).kind = s.kind := rfl
@[simp] theorem State.ditherCanvas_freq (s : State) : (s.ditherCanvas).freq = s.freq := rfl
@[simp] theorem State.ditherCanvas_nscale (s : State) : (s.ditherCanvas).nscale = s.nscale := rfl
@[simp] theorem State.ditherCanvas_invert (s : State) : (s.ditherCanvas).invert = s.invert := rfl
@[simp] theorem State.ditherCanvas_width (s : State) : (s.ditherCanvas).width = s.width := rfl
@[simp] theorem State.ditherCanvas_height (s : State) : (s.ditherCanvas).height = s.height := rfl
@[simp] theorem State.ditherCanvas_block (s : State) : (s.ditherCanvas).block = s.block := rfl
@[simp] theorem State.ditherCanvas_scan (s : State) : (s.ditherCanvas).scan = s.scan := rfl
@[simp] theorem State.ditherCanvas_faults (s : State) : (s.ditherCanvas).faults = s.faults := rfl
@[simp] theorem State.ditherCanvas_resets (s : State) : (s.ditherCanvas).resets = s.resets := rfl
@[simp] theorem State.ditherCanvas_draws (s : State) : (s.ditherCanvas).draws = s.draws := rfl
@[simp] theorem State.ditherCanvas_polls (s : State) : (s.ditherCanvas).polls = s.polls := rfl
@[simp] theorem State.ditherCanvas_frameCount (s : State) : (s.ditherCanvas).frameCount = s.frameCount := rfl
@[simp] theorem State.ditherCanvas_program (s : State) : (s.ditherCanvas).program = s.program := rfl
@[simp] theorem State.ditherCanvas_received (s : State) : (s.ditherCanvas).received = s.received := rfl
@[simp] theorem State.ditherCanvas_kept (s : State) : (s.ditherCanvas).kept = s.kept := rfl
@[simp] theorem State.ditherCanvas_screen (s : State) : (s.ditherCanvas).screen = s.screen := rfl

/-! ### withFetchWord -/

@[simp] theorem State.withFetchWord_busy (s : State) (nbits w : Nat) : (s.withFetchWord nbits w).busy = true := rfl
@[simp] theorem State.withFetchWord_err (s : State) (nbits w : Nat) : (s.withFetchWord nbits w).err = s.err := rfl
@[simp] theorem State.withFetchWord_errCode (s : State) (nbits w : Nat) : (s.withFetchWord nbits w).errCode = s.errCode := rfl
@[simp] theorem State.withFetchWord_cl (s : State) (nbits w : Nat) : (s.withFetchWord nbits w).cl = tableWord nbits w := rfl
@[simp] theorem State.withFetchWord_arg0 (s : State) (nbits w : Nat) : (s.withFetchWord nbits w).arg0 = s.arg0 := rfl
@[simp] theorem State.withFetchWord_arg1 (s : State) (nbits w : Nat) : (s.withFetchWord nbits w).arg1 = s.arg1 := rfl
@[simp] theorem State.withFetchWord_arg2 (s : State) (nbits w : Nat) : (s.withFetchWord nbits w).arg2 = s.arg2 := rfl
@[simp] theorem State.withFetchWord_result (s : State) (nbits w : Nat) : (s.withFetchWord nbits w).result = s.result := rfl
@[simp] theorem State.withFetchWord_seed (s : State) (nbits w : Nat) : (s.withFetchWord nbits w).seed = s.seed := rfl
@[simp] theorem State.withFetchWord_kind (s : State) (nbits w : Nat) : (s.withFetchWord nbits w).kind = s.kind := rfl
@[simp] theorem State.withFetchWord_freq (s : State) (nbits w : Nat) : (s.withFetchWord nbits w).freq = s.freq := rfl
@[simp] theorem State.withFetchWord_nscale (s : State) (nbits w : Nat) : (s.withFetchWord nbits w).nscale = s.nscale := rfl
@[simp] theorem State.withFetchWord_invert (s : State) (nbits w : Nat) : (s.withFetchWord nbits w).invert = s.invert := rfl
@[simp] theorem State.withFetchWord_width (s : State) (nbits w : Nat) : (s.withFetchWord nbits w).width = s.width := rfl
@[simp] theorem State.withFetchWord_height (s : State) (nbits w : Nat) : (s.withFetchWord nbits w).height = s.height := rfl
@[simp] theorem State.withFetchWord_block (s : State) (nbits w : Nat) : (s.withFetchWord nbits w).block = s.block := rfl
@[simp] theorem State.withFetchWord_canvas (s : State) (nbits w : Nat) : (s.withFetchWord nbits w).canvas = s.canvas := rfl
@[simp] theorem State.withFetchWord_scan (s : State) (nbits w : Nat) : (s.withFetchWord nbits w).scan = s.scan := rfl
@[simp] theorem State.withFetchWord_faults (s : State) (nbits w : Nat) : (s.withFetchWord nbits w).faults = s.faults := rfl
@[simp] theorem State.withFetchWord_resets (s : State) (nbits w : Nat) : (s.withFetchWord nbits w).resets = s.resets := rfl
@[simp] theorem State.withFetchWord_draws (s : State) (nbits w : Nat) : (s.withFetchWord nbits w).draws = s.draws := rfl
@[simp] theorem State.withFetchWord_polls (s : State) (nbits w : Nat) : (s.withFetchWord nbits w).polls = 0 := rfl
@[simp] theorem State.withFetchWord_frameCount (s : State) (nbits w : Nat) : (s.withFetchWord nbits w).frameCount = s.frameCount := rfl
@[simp] theorem State.withFetchWord_program (s : State) (nbits w : Nat) : (s.withFetchWord nbits w).program = s.program := rfl
@[simp] theorem State.withFetchWord_received (s : State) (nbits w : Nat) : (s.withFetchWord nbits w).received = s.received := rfl
@[simp] theorem State.withFetchWord_kept (s : State) (nbits w : Nat) : (s.withFetchWord nbits w).kept = s.kept := rfl
@[simp] theorem State.withFetchWord_screen (s : State) (nbits w : Nat) : (s.withFetchWord nbits w).screen = s.screen := rfl

/-! ### resetEvent -/

@[simp] theorem State.resetEvent_busy (s : State) : (s.resetEvent).busy = false := rfl
@[simp] theorem State.resetEvent_err (s : State) : (s.resetEvent).err = false := rfl
@[simp] theorem State.resetEvent_errCode (s : State) : (s.resetEvent).errCode = 0#4 := rfl
@[simp] theorem State.resetEvent_cl (s : State) : (s.resetEvent).cl = 0#32 := rfl
@[simp] theorem State.resetEvent_arg0 (s : State) : (s.resetEvent).arg0 = 0#32 := rfl
@[simp] theorem State.resetEvent_arg1 (s : State) : (s.resetEvent).arg1 = 0#32 := rfl
@[simp] theorem State.resetEvent_arg2 (s : State) : (s.resetEvent).arg2 = 0#32 := rfl
@[simp] theorem State.resetEvent_result (s : State) : (s.resetEvent).result = 0#32 := rfl
@[simp] theorem State.resetEvent_seed (s : State) : (s.resetEvent).seed = 0#32 := rfl
@[simp] theorem State.resetEvent_kind (s : State) : (s.resetEvent).kind = 0#32 := rfl
@[simp] theorem State.resetEvent_freq (s : State) : (s.resetEvent).freq = 0x3F800000#32 := rfl
@[simp] theorem State.resetEvent_nscale (s : State) : (s.resetEvent).nscale = 0x3D4CCCCD#32 := rfl
@[simp] theorem State.resetEvent_invert (s : State) : (s.resetEvent).invert = false := rfl
@[simp] theorem State.resetEvent_width (s : State) : (s.resetEvent).width = s.width := rfl
@[simp] theorem State.resetEvent_height (s : State) : (s.resetEvent).height = s.height := rfl
@[simp] theorem State.resetEvent_block (s : State) : (s.resetEvent).block = s.block := rfl
@[simp] theorem State.resetEvent_canvas (s : State) : (s.resetEvent).canvas = [] := rfl
@[simp] theorem State.resetEvent_scan (s : State) : (s.resetEvent).scan = none := rfl
@[simp] theorem State.resetEvent_faults (s : State) : (s.resetEvent).faults = s.faults := rfl
@[simp] theorem State.resetEvent_resets (s : State) : (s.resetEvent).resets = s.resets + 1 := rfl
@[simp] theorem State.resetEvent_draws (s : State) : (s.resetEvent).draws = s.draws := rfl
@[simp] theorem State.resetEvent_polls (s : State) : (s.resetEvent).polls = 0 := rfl
@[simp] theorem State.resetEvent_frameCount (s : State) : (s.resetEvent).frameCount = s.frameCount := rfl
@[simp] theorem State.resetEvent_program (s : State) : (s.resetEvent).program = s.program := rfl
@[simp] theorem State.resetEvent_received (s : State) : (s.resetEvent).received = s.received := rfl
@[simp] theorem State.resetEvent_kept (s : State) : (s.resetEvent).kept = s.kept := rfl
@[simp] theorem State.resetEvent_screen (s : State) : (s.resetEvent).screen = s.screen := rfl

/-! ### The canvas size under the updates -/

@[simp] theorem State.finish_cells (s : State) : (s.finish).cells = s.cells := rfl
@[simp] theorem State.raiseCmdError_cells (s : State) (e : CmdError) : (s.raiseCmdError e).cells = s.cells := rfl
@[simp] theorem State.setCanvasByte_cells (s : State) (i : Nat) (b : Byte) : (s.setCanvasByte i b).cells = s.cells := rfl
@[simp] theorem State.setCanvasBytes_cells (s : State) (bs : List Byte) : (s.setCanvasBytes bs).cells = s.cells := rfl
@[simp] theorem State.issue_cells (s : State) (v : Word) : (s.issue v).cells = s.cells := rfl
@[simp] theorem State.recordFault_cells (s : State) (f : FaultRecord) : (s.recordFault f).cells = s.cells := rfl
@[simp] theorem State.prepend_cells (s : State) (ops : List HostOp) : (s.prepend ops).cells = s.cells := rfl
@[simp] theorem State.nextSlot_cells (s : State) : (s.nextSlot).cells = s.cells := rfl
@[simp] theorem State.fillCanvas_cells (s : State) : (s.fillCanvas).cells = s.cells := rfl
@[simp] theorem State.ditherCanvas_cells (s : State) : (s.ditherCanvas).cells = s.cells := rfl
@[simp] theorem State.withFetchWord_cells (s : State) (nbits w : Nat) : (s.withFetchWord nbits w).cells = s.cells := rfl
@[simp] theorem State.resetEvent_cells (s : State) : (s.resetEvent).cells = s.cells := rfl

end Sys2Proof.Machine
end

