-- ==== Sys2Proof/Laws/Faults.lean ====
section
/-! SUPPORT. The model-only fault set: insertion adds one member and keeps the one order. -/

namespace Sys2Proof.Machine

theorem faultKey_injective {f g : FaultRecord} (h : faultKey f = faultKey g) : f = g := by
  cases f with
  | busError a =>
    cases g with
    | busError b => simp only [faultKey] at h; exact congrArg _ (BitVec.eq_of_toNat_eq h)
    | hazardAccess b => simp only [faultKey] at h; have := a.isLt; omega
  | hazardAccess a =>
    cases g with
    | busError b => simp only [faultKey] at h; have := b.isLt; omega
    | hazardAccess b =>
      simp only [faultKey] at h
      exact congrArg _ (BitVec.eq_of_toNat_eq (by omega))

/-- Insertion adds exactly the new record (10_state.md R46). -/
theorem mem_faultInsert (f g : FaultRecord) (l : List FaultRecord) :
    g ∈ faultInsert f l ↔ g = f ∨ g ∈ l := by
  induction l with
  | nil => simp [faultInsert]
  | cons a l ih =>
    unfold faultInsert
    split
    · simp
    · split
      · next h => subst h; simp
      · simp only [List.mem_cons, ih]; tauto

/-- Insertion keeps the set listed in rising order without repeats. -/
theorem faultsAbove_faultInsert {lo : Nat} {f : FaultRecord} {l : List FaultRecord}
    (h : faultsAbove lo l = true) (hf : lo ≤ faultKey f) : faultsAbove lo (faultInsert f l) = true := by
  induction l generalizing lo with
  | nil => simp [faultInsert, faultsAbove, hf]
  | cons g l ih =>
    simp only [faultsAbove, Bool.and_eq_true, decide_eq_true_eq] at h
    unfold faultInsert
    split
    · simp only [faultsAbove, Bool.and_eq_true, decide_eq_true_eq]
      exact ⟨hf, by omega, h.2⟩
    · split
      · next hfg => simp [faultsAbove, h]
      · next hlt hne =>
        have : faultKey f ≠ faultKey g := fun e => hne (faultKey_injective e)
        simp only [faultsAbove, Bool.and_eq_true, decide_eq_true_eq]
        exact ⟨h.1, ih h.2 (by omega)⟩

/-- Recording a fault keeps the order of the set. -/
theorem State.recordFault_ordered (s : State) (f : FaultRecord) (h : faultsAbove 0 s.faults = true) :
    faultsAbove 0 (s.recordFault f).faults = true :=
  faultsAbove_faultInsert h (Nat.zero_le _)

end Sys2Proof.Machine
end

