-- ==== Sys2Proof/Laws/Float.lean ====
section
/-! SUPPORT. Spec lemmas of the binary32 operations: the fields of a packed pattern, the rounding function's
bounds, monotonicity and exactness on representable values. -/

namespace Sys2Proof.Machine

/-! ## Packing -/

theorem fPack_toNat (neg : Bool) {m : Nat} (h : m < 2 ^ 31) :
    (fPack neg m).toNat = if neg then 2 ^ 31 + m else m := by
  cases neg <;> simp [fPack] <;> omega

theorem fMag_fPack (neg : Bool) {m : Nat} (h : m < 2 ^ 31) : fMag (fPack neg m) = m := by
  rw [fMag, fPack_toNat neg h]; cases neg
  · simp; omega
  · simp; omega

theorem fSign_fPack (neg : Bool) {m : Nat} (h : m < 2 ^ 31) : fSign (fPack neg m) = neg := by
  rw [fSign, BitVec.msb_eq_decide, fPack_toNat neg h]; cases neg
  · simp; omega
  · simp

theorem fMag_lt (a : F32) : fMag a < 2 ^ 31 := Nat.mod_lt _ (by decide)

/-! ## Division with ties to even -/

theorem divRoundEven_cases (num den : Nat) :
    divRoundEven num den = num / den ∨ divRoundEven num den = num / den + 1 := by
  unfold divRoundEven; dsimp only; split <;> simp

theorem divRoundEven_of_dvd {num den : Nat} (h : den ∣ num) : divRoundEven num den = num / den := by
  obtain ⟨c, rfl⟩ := h
  unfold divRoundEven
  dsimp only
  rw [Nat.mul_mod_right, if_neg (by rcases Nat.eq_zero_or_pos den with h | h <;> simp [h]; omega)]

/-- The rounded quotient is at most half a unit away, and even where it is exactly half a unit away. -/
theorem divRoundEven_spec (num den : Nat) (h : 0 < den) :
    2 * num ≤ (2 * divRoundEven num den + 1) * den ∧
      2 * (divRoundEven num den * den) ≤ 2 * num + den ∧
      (2 * num = (2 * divRoundEven num den + 1) * den → divRoundEven num den % 2 = 0) ∧
      (2 * (divRoundEven num den * den) = 2 * num + den → divRoundEven num den % 2 = 0) := by
  have hq := Nat.div_add_mod num den
  have hr := Nat.mod_lt num h
  unfold divRoundEven
  dsimp only
  generalize num / den = q at *
  generalize num % den = r at *
  have e1 : (2 * q + 1) * den = 2 * (den * q) + den := by ring
  have e2 : (2 * (q + 1) + 1) * den = 2 * (den * q) + 3 * den := by ring
  have e3 : (q + 1) * den = den * q + den := by ring
  have e4 : q * den = den * q := by ring
  split <;> simp only [e1, e2, e3, e4] <;> generalize den * q = p at * <;> refine ⟨?_, ?_, ?_, ?_⟩ <;> omega

theorem divRoundEven_mono {n1 d1 n2 d2 : Nat} (h1 : 0 < d1) (h2 : 0 < d2) (h : n1 * d2 ≤ n2 * d1) :
    divRoundEven n1 d1 ≤ divRoundEven n2 d2 := by
  by_contra hc
  push Not at hc
  obtain ⟨-, b1, -, t1⟩ := divRoundEven_spec n1 d1 h1
  obtain ⟨a2, -, t2, -⟩ := divRoundEven_spec n2 d2 h2
  generalize divRoundEven n1 d1 = x at *
  generalize divRoundEven n2 d2 = y at *
  have k1 : (2 * x - 1) * d1 ≤ 2 * n1 := by
    have : (2 * x - 1) * d1 + d1 = 2 * (x * d1) := by
      rw [← Nat.succ_mul, show (2 * x - 1).succ = 2 * x by omega]; ring
    omega
  have k2 : 2 * n2 ≤ (2 * y + 1) * d2 := a2
  have c1 : (2 * x - 1) * d1 * d2 ≤ 2 * n1 * d2 := Nat.mul_le_mul_right _ k1
  have c2 : 2 * n2 * d1 ≤ (2 * y + 1) * d2 * d1 := Nat.mul_le_mul_right _ k2
  have c3 : (2 * x - 1) * (d1 * d2) ≤ (2 * y + 1) * (d1 * d2) := by nlinarith
  have hd : 0 < d1 * d2 := Nat.mul_pos h1 h2
  have c4 : 2 * x - 1 ≤ 2 * y + 1 := Nat.le_of_mul_le_mul_right c3 hd
  have hx : x = y + 1 := by omega
  subst hx
  have e : 2 * (y + 1) - 1 = 2 * y + 1 := by omega
  rw [e] at k1 c1
  have s1 : 2 * n2 * d1 = (2 * y + 1) * d2 * d1 := by nlinarith
  have s2 : 2 * n2 = (2 * y + 1) * d2 := Nat.eq_of_mul_eq_mul_right h1 s1
  have s3 : (2 * y + 1) * d1 * d2 = 2 * n1 * d2 := by nlinarith
  have s4 : (2 * y + 1) * d1 = 2 * n1 := Nat.eq_of_mul_eq_mul_right h2 s3
  have p1 := t1 (by have : 2 * ((y + 1) * d1) = (2 * y + 1) * d1 + d1 := by ring
                    omega)
  have p2 := t2 s2
  omega

/-! ## Rounding -/

theorem roundMag_le (num den : Nat) : roundMag num den ≤ infMag := Nat.min_le_right _ _

theorem roundMag_lt (num den : Nat) : roundMag num den < 2 ^ 31 :=
  lt_of_le_of_lt (roundMag_le num den) (by decide)

theorem fMag_fRound (neg : Bool) (num den : Nat) : fMag (fRound neg num den) = roundMag num den :=
  fMag_fPack neg (roundMag_lt num den)

theorem fSign_fRound (neg : Bool) (num den : Nat) : fSign (fRound neg num den) = neg :=
  fSign_fPack neg (roundMag_lt num den)

/-- A rounded value is never a NaN. -/
theorem fIsNaN_fRound (neg : Bool) (num den : Nat) : fIsNaN (fRound neg num den) = false := by
  simp [fIsNaN, fMag_fRound, roundMag_le]

theorem lt_two_pow_droppedBits (q : Nat) : q < 2 ^ (droppedBits q + 24) := by
  rcases Nat.eq_zero_or_pos q with h | h
  · subst h; simp
  · exact lt_of_lt_of_le Nat.lt_log2_self (Nat.pow_le_pow_right (by decide) (by unfold droppedBits; omega))

theorem two_pow_droppedBits_le {q : Nat} (h : droppedBits q ≠ 0) : 2 ^ (droppedBits q + 23) ≤ q := by
  have hq : q ≠ 0 := by rintro rfl; simp [droppedBits] at h
  have : droppedBits q + 23 = q.log2 := by unfold droppedBits at *; omega
  rw [this]; exact Nat.log2_self_le hq

theorem droppedBits_mono {a b : Nat} (h : a ≤ b) : droppedBits a ≤ droppedBits b := by
  by_contra hc
  push Not at hc
  have h1 := two_pow_droppedBits_le (q := a) (by omega)
  have h2 := lt_two_pow_droppedBits b
  have : 2 ^ (droppedBits b + 24) ≤ 2 ^ (droppedBits a + 23) := Nat.pow_le_pow_right (by decide) (by omega)
  omega

/-- The significand before packing is at most 2^24: 24 bits, or a carry out of them. -/
theorem significand_le (num den : Nat) :
    divRoundEven num (den * 2 ^ droppedBits (num / den)) ≤ 2 ^ 24 := by
  have hq := lt_two_pow_droppedBits (num / den)
  generalize droppedBits (num / den) = k at *
  have : num / (den * 2 ^ k) < 2 ^ 24 := by
    rw [← Nat.div_div_eq_div_mul, Nat.div_lt_iff_lt_mul (by positivity), ← pow_add, Nat.add_comm 24]
    exact hq
  rcases divRoundEven_cases num (den * 2 ^ k) with e | e <;> omega

/-- Where bits are dropped the significand has its leading bit. -/
theorem le_significand (num den : Nat) (hk : droppedBits (num / den) ≠ 0) :
    2 ^ 23 ≤ divRoundEven num (den * 2 ^ droppedBits (num / den)) := by
  have hq := two_pow_droppedBits_le hk
  generalize droppedBits (num / den) = k at *
  have : 2 ^ 23 ≤ num / (den * 2 ^ k) := by
    rw [← Nat.div_div_eq_div_mul, Nat.le_div_iff_mul_le (by positivity), ← pow_add, Nat.add_comm 23]
    exact hq
  rcases divRoundEven_cases num (den * 2 ^ k) with e | e <;> omega

/-- Rounding is monotone. -/
theorem roundMag_mono {n1 d1 n2 d2 : Nat} (h1 : 0 < d1) (h2 : 0 < d2) (h : n1 * d2 ≤ n2 * d1) :
    roundMag n1 d1 ≤ roundMag n2 d2 := by
  have hq : n1 / d1 ≤ n2 / d2 := by
    rw [Nat.le_div_iff_mul_le h2]
    have : n1 / d1 * d2 * d1 ≤ n2 * d1 := by
      calc n1 / d1 * d2 * d1 = n1 / d1 * d1 * d2 := by ring
        _ ≤ n1 * d2 := Nat.mul_le_mul_right _ (Nat.div_mul_le_self _ _)
        _ ≤ n2 * d1 := h
    exact Nat.le_of_mul_le_mul_right this h1
  have hk := droppedBits_mono hq
  have s1 := significand_le n1 d1
  unfold roundMag
  refine min_le_min_right _ ?_
  rcases Nat.eq_or_lt_of_le hk with e | e
  · rw [e]
    refine Nat.add_le_add_left (divRoundEven_mono (by positivity) (by positivity) ?_) _
    calc n1 * (d2 * 2 ^ droppedBits (n2 / d2)) = n1 * d2 * 2 ^ droppedBits (n2 / d2) := by ring
      _ ≤ n2 * d1 * 2 ^ droppedBits (n2 / d2) := Nat.mul_le_mul_right _ h
      _ = n2 * (d1 * 2 ^ droppedBits (n2 / d2)) := by ring
  · have s2 := le_significand n2 d2 (by omega)
    generalize divRoundEven n1 _ = x at *
    generalize divRoundEven n2 _ = y at *
    generalize droppedBits (n1 / d1) = k1 at *
    generalize droppedBits (n2 / d2) = k2 at *
    omega

/-- Rounding leaves a representable value alone: `den` times the units of a finite pattern over `den`. -/
theorem roundMag_exact {m den : Nat} (hd : 0 < den) (hm : m < infMag) :
    roundMag (magUnits m * den) den = m := by
  unfold roundMag
  rw [Nat.mul_div_cancel _ hd]
  by_cases he : m / 2 ^ 23 = 0
  · have e0 : magUnits m = m := by rw [magUnits]; exact if_pos he
    have hlt : m < 2 ^ 23 := by omega
    have hk : droppedBits m = 0 := by
      by_contra hk
      have := two_pow_droppedBits_le hk
      have : 2 ^ 23 ≤ 2 ^ (droppedBits m + 23) := Nat.pow_le_pow_right (by decide) (by omega)
      omega
    dsimp only
    rw [e0, hk, pow_zero, Nat.mul_one, divRoundEven_of_dvd (Dvd.intro_left _ rfl), Nat.mul_div_cancel _ hd]
    simp only [infMag] at *; omega
  · have e0 : magUnits m = (2 ^ 23 + m % 2 ^ 23) * 2 ^ (m / 2 ^ 23 - 1) := by
      rw [magUnits]; exact if_neg he
    set s := 2 ^ 23 + m % 2 ^ 23 with hs
    set k := m / 2 ^ 23 - 1 with hkdef
    have b1 : 2 ^ 23 ≤ s := by omega
    have b2 : s < 2 ^ 24 := by omega
    have hk : droppedBits (s * 2 ^ k) = k := by
      apply le_antisymm
      · by_contra hc
        have h1 := two_pow_droppedBits_le (q := s * 2 ^ k) (by omega)
        have h2 : 2 ^ (k + 24) ≤ 2 ^ (droppedBits (s * 2 ^ k) + 23) :=
          Nat.pow_le_pow_right (by decide) (by omega)
        have h3 : s * 2 ^ k < 2 ^ 24 * 2 ^ k := Nat.mul_lt_mul_of_pos_right b2 (by positivity)
        rw [pow_add] at h2; omega
      · by_contra hc
        push Not at hc
        have h1 := lt_two_pow_droppedBits (s * 2 ^ k)
        have h2 : 2 ^ (droppedBits (s * 2 ^ k) + 24) ≤ 2 ^ (k + 23) :=
          Nat.pow_le_pow_right (by decide) (by omega)
        have h3 : 2 ^ 23 * 2 ^ k ≤ s * 2 ^ k := Nat.mul_le_mul_right _ b1
        rw [pow_add 2 k 23] at h2; omega
    have e1 : s * 2 ^ k * den = s * (den * 2 ^ k) := by ring
    dsimp only
    rw [e0, hk, e1, divRoundEven_of_dvd (Dvd.intro_left _ rfl), Nat.mul_div_cancel _ (by positivity)]
    simp only [infMag] at *; omega

end Sys2Proof.Machine
end

