-- ==== Sys2Proof/Laws/Memory.lean ====
section
/-! SUPPORT. The canvas memory: read after write, and the canonical form under every operation. -/

namespace Sys2Proof.Machine

/-! ## Reading -/

theorem cellFind_cellPut (i j : Nat) (b : Byte) (m : Memory) :
    cellFind j (cellPut i b m) = if j = i then some b else cellFind j m := by
  induction m with
  | nil => simp [cellPut, cellFind, eq_comm]
  | cons c m ih =>
    obtain ⟨a, d⟩ := c
    by_cases h1 : i < a
    · simp [cellPut, h1, cellFind, eq_comm]
    · by_cases h2 : i = a
      · subst h2
        by_cases h3 : i = j
        · simp [cellPut, cellFind, h3]
        · simp [cellPut, cellFind, h3, Ne.symm h3]
      · by_cases h3 : a = j
        · subst h3
          simp [cellPut, h1, h2, cellFind, Ne.symm h2]
        · simp [cellPut, h1, h2, cellFind, h3, ih]

theorem cellFind_append (i : Nat) (m n : Memory) :
    cellFind i (m ++ n) = (cellFind i m).or (cellFind i n) := by
  induction m with
  | nil => simp [cellFind]
  | cons c m ih =>
    obtain ⟨a, d⟩ := c
    by_cases h : a = i <;> simp [cellFind, h, ih]

theorem cellFind_cellsFrom (k i : Nat) (bs : List Byte) :
    cellFind i (cellsFrom k bs) = if k ≤ i then bs[i - k]? else none := by
  induction bs generalizing k with
  | nil => simp [cellsFrom, cellFind]
  | cons b bs ih =>
    rcases Nat.lt_trichotomy k i with h | h | h
    · have e : i - k = (i - (k + 1)) + 1 := by omega
      rw [cellsFrom, cellFind, if_neg (by omega), ih, if_pos (by omega), if_pos (by omega), e,
        List.getElem?_cons_succ]
    · subst h; simp [cellsFrom, cellFind]
    · rw [cellsFrom, cellFind, if_neg (by omega), ih, if_neg (by omega), if_neg (by omega)]

theorem cellFind_filter_ge (n i : Nat) (m : Memory) :
    cellFind i (m.filter fun c => decide (n ≤ c.1)) = if n ≤ i then cellFind i m else none := by
  induction m with
  | nil => simp [cellFind]
  | cons c m ih =>
    obtain ⟨a, d⟩ := c
    by_cases h : n ≤ a
    · by_cases h2 : a = i
      · subst h2; simp [h, cellFind]
      · simp [h, cellFind, h2, ih]
    · by_cases h2 : a = i
      · subst h2; simp [h, ih]
      · simp [h, cellFind, h2, ih]

/-- Read after write, at the same place and elsewhere (10_state.md R39). -/
theorem State.canvasByte_setCanvasByte (s : State) (i j : Nat) (b : Byte) :
    (s.setCanvasByte i b).canvasByte j = if j = i then b else s.canvasByte j := by
  by_cases h : j = i <;> simp [State.canvasByte, cellFind_cellPut, h]

/-- After all bytes of a list are written, each index inside it reads the list and each other index reads
as before. -/
theorem State.canvasByte_setCanvasBytes (s : State) (bs : List Byte) (i : Nat) :
    (s.setCanvasBytes bs).canvasByte i = bs.getD i (s.canvasByte i) := by
  by_cases h : i < bs.length
  · simp [State.canvasByte, cellFind_append, cellFind_cellsFrom, h]
  · simp only [State.canvasByte, State.setCanvasBytes_canvas, State.setCanvasBytes_resets,
      cellFind_append, cellFind_cellsFrom, cellFind_filter_ge]
    simp [h, Nat.le_of_not_lt h]

@[simp] theorem State.canvasBytes_length (s : State) : s.canvasBytes.length = s.cells := by
  simp [State.canvasBytes]

theorem State.canvasBytes_getD (s : State) (i : Nat) (d : Byte) (h : i < s.cells) :
    s.canvasBytes.getD i d = s.canvasByte i := by
  simp [State.canvasBytes, h]

/-- The bytes read back are the bytes written, if there is one for every cell. -/
theorem State.canvasBytes_setCanvasBytes (s : State) (bs : List Byte) (h : bs.length = s.cells) :
    (s.setCanvasBytes bs).canvasBytes = bs := by
  apply List.ext_getElem
  · simp [h]
  · intro i h1 h2
    simp [State.canvasBytes, State.canvasByte_setCanvasBytes, h2]

/-- The state update of one command does not reach the canvas: its bytes read as before. -/
theorem State.canvasByte_congr (s t : State) (hc : t.canvas = s.canvas) (hr : t.resets = s.resets) (i : Nat) :
    t.canvasByte i = s.canvasByte i := by
  simp [State.canvasByte, hc, hr]

@[simp] theorem State.finish_canvasByte (s : State) (i : Nat) : s.finish.canvasByte i = s.canvasByte i := rfl

/-! ## The canonical form -/

theorem cellsAbove_mono {lo lo' : Nat} {m : Memory} (h : cellsAbove lo m = true) (hl : lo' ≤ lo) :
    cellsAbove lo' m = true := by
  cases m with
  | nil => rfl
  | cons c m =>
    simp only [cellsAbove, Bool.and_eq_true, decide_eq_true_eq] at h ⊢
    exact ⟨hl.trans h.1, h.2⟩

theorem cellsAbove_cellPut {lo i : Nat} {b : Byte} {m : Memory} (h : cellsAbove lo m = true) (hi : lo ≤ i) :
    cellsAbove lo (cellPut i b m) = true := by
  induction m generalizing lo with
  | nil => simp [cellPut, cellsAbove, hi]
  | cons c m ih =>
    obtain ⟨a, d⟩ := c
    simp only [cellsAbove, Bool.and_eq_true, decide_eq_true_eq] at h
    unfold cellPut
    split
    · simp only [cellsAbove, Bool.and_eq_true, decide_eq_true_eq]
      exact ⟨hi, by omega, h.2⟩
    · split
      · next h2 => subst h2; simp [cellsAbove, h]
      · simp only [cellsAbove, Bool.and_eq_true, decide_eq_true_eq]
        exact ⟨h.1, ih h.2 (by omega)⟩

theorem cellsAbove_filter {lo : Nat} {m : Memory} (p : Host.Cell → Bool) (h : cellsAbove lo m = true) :
    cellsAbove lo (m.filter p) = true := by
  induction m generalizing lo with
  | nil => rfl
  | cons c m ih =>
    obtain ⟨a, d⟩ := c
    simp only [cellsAbove, Bool.and_eq_true, decide_eq_true_eq] at h
    rw [List.filter_cons]
    split
    · simp only [cellsAbove, Bool.and_eq_true, decide_eq_true_eq]
      exact ⟨h.1, ih h.2⟩
    · exact cellsAbove_mono (ih h.2) (by omega)

theorem cellsAbove_filter_ge {lo n : Nat} {m : Memory} (h : cellsAbove lo m = true) :
    cellsAbove n (m.filter fun c => decide (n ≤ c.1)) = true := by
  induction m generalizing lo with
  | nil => rfl
  | cons c m ih =>
    obtain ⟨a, d⟩ := c
    simp only [cellsAbove, Bool.and_eq_true, decide_eq_true_eq] at h
    rw [List.filter_cons]
    split
    · next hn =>
      simp only [decide_eq_true_eq] at hn
      simp only [cellsAbove, Bool.and_eq_true, decide_eq_true_eq]
      exact ⟨hn, cellsAbove_filter _ h.2⟩
    · exact ih h.2

theorem cellsAbove_cellsFrom_append {k : Nat} (bs : List Byte) {m : Memory}
    (h : cellsAbove (k + bs.length) m = true) : cellsAbove k (cellsFrom k bs ++ m) = true := by
  induction bs generalizing k with
  | nil => simpa [cellsFrom] using h
  | cons b bs ih =>
    simp only [cellsFrom, List.cons_append, cellsAbove, Bool.and_eq_true, decide_eq_true_eq]
    exact ⟨le_refl k, ih (by simpa [Nat.add_assoc, Nat.add_comm 1] using h)⟩

/-- Writing one byte keeps the canonical form. -/
theorem State.setCanvasByte_wf (s : State) (i : Nat) (b : Byte) (h : Memory.wf s.canvas = true) :
    Memory.wf (s.setCanvasByte i b).canvas = true :=
  cellsAbove_cellPut h (Nat.zero_le i)

/-- Writing a list of bytes keeps the canonical form. -/
theorem State.setCanvasBytes_wf (s : State) (bs : List Byte) (h : Memory.wf s.canvas = true) :
    Memory.wf (s.setCanvasBytes bs).canvas = true :=
  cellsAbove_cellsFrom_append bs (by simpa using cellsAbove_filter_ge h)

/-- Reset leaves the canonical form. -/
theorem State.resetEvent_wf (s : State) : Memory.wf s.resetEvent.canvas = true := rfl

/-- Reset memory is in canonical form. -/
theorem State.reset_wf : Memory.wf State.reset.canvas = true := rfl

/-! ## Indices inside the canvas -/

theorem Memory.within_cellPut {n i : Nat} {b : Byte} {m : Memory} (h : Memory.within n m = true) (hi : i < n) :
    Memory.within n (cellPut i b m) = true := by
  induction m with
  | nil => simp [cellPut, Memory.within, hi]
  | cons c m ih =>
    obtain ⟨a, d⟩ := c
    simp only [Memory.within, List.all_cons, Bool.and_eq_true, decide_eq_true_eq] at h ih
    unfold cellPut
    split
    · simpa [Memory.within, hi] using h
    · split
      · simpa [Memory.within, hi] using h.2
      · simpa [Memory.within, h.1] using ih h.2

theorem Memory.within_cellsFrom {n k : Nat} {bs : List Byte} (h : k + bs.length ≤ n) :
    Memory.within n (cellsFrom k bs) = true := by
  induction bs generalizing k with
  | nil => rfl
  | cons b bs ih =>
    simp only [List.length_cons] at h
    have := ih (k := k + 1) (by omega)
    simp only [cellsFrom, Memory.within, List.all_cons, Bool.and_eq_true, decide_eq_true_eq] at this ⊢
    exact ⟨by omega, this⟩

theorem Memory.within_append {n : Nat} {l m : Memory} :
    Memory.within n (l ++ m) = (Memory.within n l && Memory.within n m) := by
  simp [Memory.within]

theorem Memory.within_filter {n : Nat} {m : Memory} (p : Host.Cell → Bool) (h : Memory.within n m = true) :
    Memory.within n (m.filter p) = true := by
  simp only [Memory.within, List.all_eq_true, List.mem_filter] at h ⊢
  exact fun c hc => h c hc.1

/-- Writing bytes inside the canvas lists no index outside it. -/
theorem State.setCanvasBytes_within (s : State) (n : Nat) (bs : List Byte) (hb : bs.length ≤ n)
    (h : Memory.within n s.canvas = true) : Memory.within n (s.setCanvasBytes bs).canvas = true := by
  rw [State.setCanvasBytes_canvas, Memory.within_append, Bool.and_eq_true]
  exact ⟨Memory.within_cellsFrom (by simpa using hb), Memory.within_filter _ h⟩

end Sys2Proof.Machine
end

