-- ==== Sys2Proof/Laws/Params.lean ====
section
/-! SUPPORT. What the limits on an instance's parameters give the commands that read them. -/

namespace Sys2Proof.Machine

theorem BlockParameters.default_ok : BlockParameters.default.ok = true := by decide

/-- Every entry of a legal sine table lies in −64 … 64, whatever the index (10_state.md R41). -/
theorem sineEntry_bounds {t : List Int} (h : sineTableOk t = true) (i : BitVec 6) :
    -64 ≤ sineEntry t i ∧ sineEntry t i ≤ 64 := by
  simp only [sineTableOk, Bool.and_eq_true, beq_iff_eq, List.all_eq_true, decide_eq_true_eq] at h
  have hi : i.toNat < t.length := by have := i.isLt; omega
  have hm := h.2 _ (List.getElem_mem hi)
  rw [sineEntry, List.getD_eq_getElem _ _ hi]
  exact hm

/-- A bounded angle has at most the magnitude of f32(π) (41_pattern.md R178). -/
theorem fMag_boundAngle (w : Word) : fMag (boundAngle w) ≤ fMag fPi := by
  have hp : fMag fPi = 0x40490FDB := rfl
  have hlt : w.toNat % 2 ^ 31 % (fMag fPi + 1) < fMag fPi + 1 := Nat.mod_lt _ (Nat.succ_pos _)
  rw [boundAngle, fMag_fPack _ (by omega)]
  omega

/-- A pattern of at most the magnitude of f32(π) is in the range of ATAN2_F32. -/
theorem angleOk_of_fMag_le {v : F32} (h : fMag v ≤ fMag fPi) : angleOk v = true := by
  have hp : fMag fPi = 0x40490FDB := rfl
  have hn : fIsNaN v = false := decide_eq_false (by unfold infMag; omega)
  have e1 : fOrder fPi = 0x40490FDB := rfl
  have e2 : fOrder fMinusPi = -0x40490FDB := rfl
  have n1 : fIsNaN fPi = false := rfl
  have n2 : fIsNaN fMinusPi = false := rfl
  simp only [angleOk, fle, hn, n1, n2, e1, e2, Bool.not_false, Bool.true_and, Bool.and_eq_true, decide_eq_true_eq]
  unfold fOrder
  split <;> omega

/-- Every value in the range is some word's bounded angle. -/
theorem boundAngle_self {v : F32} (h : fMag v ≤ fMag fPi) : boundAngle v = v := by
  have hp : fMag fPi = 0x40490FDB := rfl
  have hm : v.toNat % 2 ^ 31 % (fMag fPi + 1) = fMag v := Nat.mod_eq_of_lt (Nat.lt_succ_of_le h)
  have hv := v.isLt
  have hmsb : v.msb = decide (2 ^ 31 ≤ v.toNat) := BitVec.msb_eq_decide v
  rw [boundAngle, hm]
  apply BitVec.eq_of_toNat_eq
  rw [fPack_toNat _ (fMag_lt v), hmsb]
  unfold fMag
  split
  · simp_all; omega
  · simp_all

end Sys2Proof.Machine
end

