-- ==== Sys2Proof/Laws/PerInstr.lean ====
section
/-! SUPPORT. Statements made for every command, one lemma per constructor. -/

namespace Sys2Proof.Laws

/-- The command word of a well-formed command: RSV is 0, OPC is its opcode, and the opcode is one of
0x00 … 0x07 (30_encoding.md R90, R92). -/
def CommandWord.Statement (i : Instr) : Prop :=
  i.wellFormed = true → fieldRsv (encode i) = 0#24 ∧ fieldOpc (encode i) = opcodeOf i ∧ (opcodeOf i).toNat ≤ 7

theorem CommandWord.nop : CommandWord.Statement .nop := by unfold CommandWord.Statement; decide
theorem CommandWord.prng : CommandWord.Statement .prng := by unfold CommandWord.Statement; decide
theorem CommandWord.noise : CommandWord.Statement .noise := by unfold CommandWord.Statement; decide
theorem CommandWord.sine : CommandWord.Statement .sine := by unfold CommandWord.Statement; decide
theorem CommandWord.eval : CommandWord.Statement .eval := by unfold CommandWord.Statement; decide
theorem CommandWord.fill : CommandWord.Statement .fill := by unfold CommandWord.Statement; decide
theorem CommandWord.dither : CommandWord.Statement .dither := by unfold CommandWord.Statement; decide
theorem CommandWord.render : CommandWord.Statement .render := by unfold CommandWord.Statement; decide

end Sys2Proof.Laws
end

