-- ==== Sys2Proof/Laws/Step.lean ====
section
/-! SUPPORT. What a step can do, said once: the engine's, the host's and each shared operation under them. -/

namespace Sys2Proof.Machine

/-! ## The engine -/

theorem State.engineTurn_iff (s : State) :
    s.engineTurn = true ↔ s.busy = true ∧ (s.polls = 0 ∨ s.program = []) := by
  simp [State.engineTurn]

/-- What each command does when it answers a next state: the equations of the eight meanings. -/
theorem exec_cases {i : Instr} {s t : State} (h : exec i s = .next t) :
    (i = .nop ∧ t = s.finish) ∨
    (i = .prng ∧ t = { s with arg0 := xorshift32 s.arg0, result := xorshift32 s.arg0 }.finish) ∨
    (i = .noise ∧ t = { s with result := zext32 (hashNoise s.arg0 s.arg1 s.arg2) }.finish) ∨
    (i = .sine ∧ t = { s with result := sext32 (sineApprox s.block.sineTable s.angleOperand) }.finish) ∨
    (i = .eval ∧ s.evalInCanvas = true ∧
      t = { s with
        result := zext32 (evaluate s.patternParams s.draws s.evalX s.evalY)
        draws := s.draws + slotsPerPixel }.finish) ∨
    (i = .eval ∧ s.evalInCanvas = false ∧ t = s.raiseCmdError .badCoord) ∨
    (i = .fill ∧ t = s.fillCanvas.finish) ∨
    (i = .dither ∧ t = s.ditherCanvas.finish) ∨
    (i = .render ∧ t = s.fillCanvas.ditherCanvas.finish) := by
  cases i <;> simp only [exec, execNop, execPrng, execNoise, execSine, execEval, execFill, execDither,
    execRender] at h
  case eval =>
    split at h <;> cases h <;> simp_all
  all_goals cases h; simp

/-- Every command completes (60_exceptions.md R280). -/
theorem exec_isNext (i : Instr) (s : State) : ∃ t, exec i s = .next t := by
  cases i
  case eval => simp only [exec, execEval]; split <;> exact ⟨_, rfl⟩
  all_goals exact ⟨_, rfl⟩

theorem engineStep_cases {s t : State} (h : engineStep s = .next t) :
    (∃ i, decode s.cl = .ok i ∧ exec i s = .next t) ∨
      (∃ r, decode s.cl = .reject r ∧ t = s.raiseCmdError .illegalCmd) := by
  unfold engineStep at h
  split at h
  · exact .inl ⟨_, ‹_›, h⟩
  · cases h; exact .inr ⟨_, ‹_›, rfl⟩

theorem engineStep_isNext (s : State) : ∃ t, engineStep s = .next t := by
  unfold engineStep; split
  · exact exec_isNext _ _
  · exact ⟨_, rfl⟩

/-- After an engine step no command is pending (10_state.md R43). -/
theorem engineStep_busy {s t : State} (h : engineStep s = .next t) : t.busy = false := by
  rcases engineStep_cases h with ⟨i, -, hi⟩ | ⟨r, -, rfl⟩
  · rcases exec_cases hi with ⟨-, rfl⟩ | ⟨-, rfl⟩ | ⟨-, rfl⟩ | ⟨-, rfl⟩ | ⟨-, -, rfl⟩ | ⟨-, -, rfl⟩ |
      ⟨-, rfl⟩ | ⟨-, rfl⟩ | ⟨-, rfl⟩ <;> rfl
  · rfl

/-! ## The step -/

/-- A step is the engine's on its turn and the host's otherwise. -/
theorem step_cases {s t : State} (h : step s = .next t) :
    (s.engineTurn = true ∧ engineStep s = .next t) ∨ (s.engineTurn = false ∧ t = hostStep s) := by
  unfold step at h
  split at h
  · exact .inl ⟨‹_›, h⟩
  · cases h; exact .inr ⟨Bool.eq_false_iff.mpr ‹_›, rfl⟩

/-- Nothing stops the machine: every step answers a next state. -/
theorem step_isNext (s : State) : ∃ t, step s = .next t := by
  unfold step; split
  · exact engineStep_isNext s
  · exact ⟨_, rfl⟩

/-! ## The bytes FILL and DITHER write -/

@[simp] theorem fillBytes_length (p : PatternParams) (d : Nat) :
    (fillBytes p d).length = p.width * p.height := by simp [fillBytes]

theorem fillBytes_getD (p : PatternParams) (d i : Nat) (b : Byte) (h : i < p.width * p.height) :
    (fillBytes p d).getD i b = evaluate p (d + slotsPerPixel * i) (i % p.width) (i / p.width) := by
  simp [fillBytes, h]

@[simp] theorem ditherSend_length (wd ht : Nat) (err : Int) (x y : Nat) (c : List Byte) (n : Int × Int × Int) :
    (ditherSend wd ht err x y c n).length = c.length := by
  unfold ditherSend; dsimp only; split <;> simp

@[simp] theorem ditherPixel_length (wd ht : Nat) (c : List Byte) (i : Nat) :
    (ditherPixel wd ht c i).length = c.length := by
  simp [ditherPixel, ditherWeights]

@[simp] theorem ditherBytes_length (wd ht : Nat) (c : List Byte) : (ditherBytes wd ht c).length = c.length := by
  unfold ditherBytes
  generalize List.range (wd * ht) = l
  induction l generalizing c with
  | nil => rfl
  | cons i l ih => simp [ih]

/-- Every byte after the body of FILL (41_pattern.md R181); indices past the canvas are not written. -/
theorem State.fillCanvas_canvasByte (s : State) (i : Nat) :
    s.fillCanvas.canvasByte i = (fillBytes s.patternParams s.draws).getD i (s.canvasByte i) := by
  unfold State.fillCanvas; rw [State.canvasByte_setCanvasBytes]; rfl

/-- Every byte after `dither()` (42_dither.md R224). -/
theorem State.ditherCanvas_canvasByte (s : State) (i : Nat) :
    s.ditherCanvas.canvasByte i =
      (ditherBytes s.width s.height s.canvasBytes).getD i (s.canvasByte i) := by
  unfold State.ditherCanvas; rw [State.canvasByte_setCanvasBytes]

/-- The bytes the ditherer reads right after FILL are the bytes FILL wrote. -/
theorem State.fillCanvas_canvasBytes (s : State) :
    s.fillCanvas.canvasBytes = fillBytes s.patternParams s.draws := by
  unfold State.fillCanvas
  exact State.canvasBytes_setCanvasBytes _ _ (by simp [State.patternParams, State.cells])

/-! ## Register writes -/

theorem State.writeStatus_cases (s : State) (v : Word) :
    s.writeStatus v = s ∨ s.writeStatus v = { s with err := false, errCode := 0#4 } := by
  unfold State.writeStatus; split <;> simp

@[simp] theorem State.writeReg_width (s : State) (r : Reg) (v : Word) : (s.writeReg r v).width = s.width := by
  cases r
  case status => simp only [State.writeReg, State.writeStatus]; split <;> rfl
  all_goals rfl

@[simp] theorem State.writeReg_height (s : State) (r : Reg) (v : Word) : (s.writeReg r v).height = s.height := by
  cases r
  case status => simp only [State.writeReg, State.writeStatus]; split <;> rfl
  all_goals rfl

@[simp] theorem State.writeReg_block (s : State) (r : Reg) (v : Word) : (s.writeReg r v).block = s.block := by
  cases r
  case status => simp only [State.writeReg, State.writeStatus]; split <;> rfl
  all_goals rfl

@[simp] theorem State.writeReg_canvas (s : State) (r : Reg) (v : Word) : (s.writeReg r v).canvas = s.canvas := by
  cases r
  case status => simp only [State.writeReg, State.writeStatus]; split <;> rfl
  all_goals rfl

@[simp] theorem State.writeReg_resets (s : State) (r : Reg) (v : Word) : (s.writeReg r v).resets = s.resets := by
  cases r
  case status => simp only [State.writeReg, State.writeStatus]; split <;> rfl
  all_goals rfl

@[simp] theorem State.writeReg_scan (s : State) (r : Reg) (v : Word) : (s.writeReg r v).scan = s.scan := by
  cases r
  case status => simp only [State.writeReg, State.writeStatus]; split <;> rfl
  all_goals rfl

@[simp] theorem State.writeReg_faults (s : State) (r : Reg) (v : Word) : (s.writeReg r v).faults = s.faults := by
  cases r
  case status => simp only [State.writeReg, State.writeStatus]; split <;> rfl
  all_goals rfl

@[simp] theorem State.writeReg_program (s : State) (r : Reg) (v : Word) :
    (s.writeReg r v).program = s.program := by
  cases r
  case status => simp only [State.writeReg, State.writeStatus]; split <;> rfl
  all_goals rfl

/-! ## Bus accesses -/

/-- A read changes nothing but the fault set, and that only where it is refused. -/
theorem State.busRead_cases (s : State) (a : BusAddr) (n : Nat) :
    (∃ f, s.busRead a n = (s.recordFault f, none)) ∨ (∃ v, s.busRead a n = (s, some v)) := by
  unfold State.busRead
  split
  · exact .inl ⟨_, rfl⟩
  · split
    · exact .inr ⟨_, rfl⟩
    · exact .inr ⟨_, rfl⟩
    · exact .inl ⟨_, rfl⟩

/-- A write is recorded as a fault, or writes a register, or writes one canvas byte inside the canvas. -/
theorem State.busWrite_cases (s : State) (a : BusAddr) (n : Nat) (v : Word) :
    (∃ f, s.busWrite a n v = s.recordFault f) ∨
    (s.busy = false ∧ ∃ r, s.busWrite a n v = s.writeReg r v) ∨
    (s.busy = false ∧ ∃ i, i < s.cells ∧ s.busWrite a n v = s.setCanvasByte i (v.setWidth 8)) := by
  unfold State.busWrite
  split
  · exact .inl ⟨_, rfl⟩
  · next hb =>
    have hb' : s.busy = false := by simpa using hb
    split
    · exact .inr (.inl ⟨hb', _, rfl⟩)
    · next i hi =>
      refine .inr (.inr ⟨hb', i, ?_, rfl⟩)
      unfold State.target at hi
      split at hi
      · split at hi
        · cases hr : regAt a <;> simp [hr] at hi
        · cases hi
      · split at hi
        · simp only [Option.some.injEq, Target.cell.injEq] at hi; omega
        · cases hi
    · exact .inl ⟨_, rfl⟩

/-! ## Host computations -/

/-- A computation of the host's changes nothing of the block, of the fault set or of the counters. -/
theorem hostCalc_frame (c : HostCalc) (free : Word) (s : State) :
    s.SameBlock (hostCalc c free s) ∧ (hostCalc c free s).faults = s.faults ∧
      (hostCalc c free s).draws = s.draws ∧ (hostCalc c free s).polls = s.polls := by
  cases c
  case countFrame => simp only [hostCalc]; split <;> simp [State.SameBlock]
  all_goals simp [hostCalc, State.SameBlock]

/-- What one statement of the host does to the block: the reset event, a bus write, or nothing but possibly
one new entry of the fault set. -/
theorem hostOp_cases (op : HostOp) (s : State) :
    (op = .platformReset ∧ hostOp op s = s.resetEvent) ∨
    (∃ a n v, op = .write a n v ∧ hostOp op s = s.busWrite a n v) ∨
    (s.SameBlock (hostOp op s) ∧ (hostOp op s).polls = s.polls ∧
      ((hostOp op s).faults = s.faults ∨ ∃ f, (hostOp op s).faults = faultInsert f s.faults)) := by
  cases op with
  | read a n =>
    refine .inr (.inr ?_)
    rcases s.busRead_cases a n with ⟨f, e⟩ | ⟨v, e⟩
    · refine ⟨?_, ?_, .inr ⟨f, ?_⟩⟩ <;> simp [hostOp, e, State.SameBlock]
    · refine ⟨?_, ?_, .inl ?_⟩ <;> simp [hostOp, e, State.SameBlock]
  | write a n v => exact .inr (.inl ⟨a, n, v, rfl, rfl⟩)
  | wait => refine .inr (.inr ?_); simp only [hostOp]; split <;> simp [State.SameBlock]
  | compute c =>
    obtain ⟨h1, h2, -, h4⟩ := hostCalc_frame c (Config.freeWord s.draws) s
    refine .inr (.inr ⟨?_, h4, .inl h2⟩)
    simpa only [State.SameBlock, hostOp, State.nextSlot_busy, State.nextSlot_err, State.nextSlot_errCode,
      State.nextSlot_cl, State.nextSlot_arg0, State.nextSlot_arg1, State.nextSlot_arg2, State.nextSlot_result,
      State.nextSlot_seed, State.nextSlot_kind, State.nextSlot_freq, State.nextSlot_nscale,
      State.nextSlot_invert, State.nextSlot_width, State.nextSlot_height, State.nextSlot_block, State.nextSlot_canvas,
      State.nextSlot_scan, State.nextSlot_resets] using h1
  | showFrom i => refine .inr (.inr ?_); simp only [hostOp]; split <;> simp [State.SameBlock]
  | call p => refine .inr (.inr ?_); simp [hostOp, State.SameBlock]
  | platformReset => exact .inl ⟨rfl, rfl⟩

end Sys2Proof.Machine
end

