-- ==== Sys2Proof/Laws/Run.lean ====
section
/-! SUPPORT. Runs of several steps. -/

namespace Sys2Proof.Machine

theorem run_zero (s : State) : Host.Core.run Sys2Proof.core 0 s = .next s := rfl

theorem run_next {s t : State} (h : step s = .next t) (k : Nat) :
    Host.Core.run Sys2Proof.core (k + 1) s = Host.Core.run Sys2Proof.core k t := by
  have hc : Sys2Proof.core.step s = .next t := h
  exact (Host.Core.run.eq_2 Sys2Proof.core s k).trans (by rw [hc])

/-- Runs compose. -/
theorem run_append {s t : State} {j : Nat} (h : Host.Core.run Sys2Proof.core j s = .next t) (k : Nat) :
    Host.Core.run Sys2Proof.core (j + k) s = Host.Core.run Sys2Proof.core k t := by
  induction j generalizing s with
  | zero =>
    have hs : s = t := Host.Outcome.next.inj h
    rw [hs, Nat.zero_add]
  | succ j ih =>
    obtain ⟨u, hu⟩ := step_isNext s
    rw [run_next hu] at h
    rw [Nat.succ_add, run_next hu]
    exact ih h

/-- A host step: with the engine not to move, the next statement of the program is performed. -/
theorem step_host {s : State} (h : s.engineTurn = false) : step s = .next (hostStep s) := by simp [step, h]

/-- While BUSY = 0 the engine has no step. -/
theorem engineTurn_of_idle {s : State} (h : s.busy = false) : s.engineTurn = false := by simp [State.engineTurn, h]

theorem hostStep_cons {s : State} {op : HostOp} {rest : List HostOp} (h : s.program = op :: rest) :
    hostStep s = hostOp op { s with program := rest, polls := s.polls - 1 } := by simp [hostStep, h]

end Sys2Proof.Machine
end

