-- ==== Sys2Proof/Tests/Slice0.lean ====
section
/-! SUPPORT. Small tests: command words written out from the encoding (30_encoding.md R90, R92), results from the
vectors of 95_test_vectors.md (each test names its vector), the well-formedness smoke tests, and for each
statement with hypotheses a witness that meets them. -/

namespace Sys2Proof.Tests

open Sys2Proof.Machine

/-! ## Helpers -/

/-- A block with a `w` × `h` canvas and the default parameters at reset, SEED 42 and the overlay off. -/
def block (w h : Nat) : State := { State.resetOf w h .default with seed := 42#32, nscale := 0#32 }

/-- Whether an outcome is a next state with this property. -/
def nextHas (o : Host.Outcome State Fault Refusal) (p : State → Bool) : Bool :=
  match o with
  | .next t => p t
  | _ => false

/-- The canvas of a list of bytes given as numbers. -/
def bytes (l : List Nat) : List Byte := l.map (BitVec.ofNat 8)

/-- Pattern parameters on the default canvas with SEED 42 (the defaults of 95_test_vectors.md). -/
def pat (kind freq nscale : Nat) (inv : Bool) : PatternParams :=
  ⟨42#32, BitVec.ofNat 32 kind, BitVec.ofNat 32 freq, BitVec.ofNat 32 nscale, inv, 128, 64, .default⟩

/-! ## Well-formedness -/

theorem test_dims_refuses_zero_width : dimsOk 0 5 = false := by decide
theorem test_dims_refuses_zero_height : dimsOk 5 0 = false := by decide
theorem test_dims_refuses_too_many_cells : dimsOk 2048 1024 = false := by decide
theorem test_dims_accepts_the_limit : dimsOk 1024 1024 = true ∧ dimsOk 1 1 = true ∧ dimsOk 128 64 = true := by
  decide
theorem test_wrb_refuses_index_past_canvas : (Stmt.wrb 8 0#32).wellFormed 8 = false := by decide
theorem test_wrb_refuses_wide_value : (Stmt.wrb 0 256#32).wellFormed 8 = false := by decide
theorem test_rdb_refuses_index_past_canvas : (Stmt.rdb 8).wellFormed 8 = false := by decide
theorem test_memory_refuses_unsorted : Memory.wf [(3, 1#8), (3, 2#8)] = false := by decide
theorem test_memory_refuses_outside : Memory.within 8 [(8, 1#8)] = false := by decide
theorem test_parameters_refuse_short_table :
    ({ BlockParameters.default with sineTable := [0, 6] }).ok = false := by decide
theorem test_parameters_refuse_large_entry : sineTableOk (65 :: defaultSineTable.tail) = false := by decide
theorem test_parameters_refuse_wide_angle :
    Atan2Parameter.ok (.table [⟨0#32, 0#32, 0x40490FDC#32⟩]) = false := by decide
theorem test_parameters_accept_default : BlockParameters.default.ok = true ∧
    Atan2Parameter.ok (.table [⟨0#32, 0x80000000#32, 0xC0490FDB#32⟩]) = true := by decide
theorem test_instr_wellFormed : Instr.wellFormed .render = true := by decide

/-! ## Decoding: words from R90 and R92, RSV zero, OPC the opcode -/

theorem test_decode_nop : decode 0b00000000000000000000000000000000#32 = .ok .nop := by decide
theorem test_decode_prng : decode 0b00000000000000000000000000000001#32 = .ok .prng := by decide
theorem test_decode_noise : decode 0b00000000000000000000000000000010#32 = .ok .noise := by decide
theorem test_decode_sine : decode 0b00000000000000000000000000000011#32 = .ok .sine := by decide
theorem test_decode_eval : decode 0b00000000000000000000000000000100#32 = .ok .eval := by decide
theorem test_decode_fill : decode 0b00000000000000000000000000000101#32 = .ok .fill := by decide
theorem test_decode_dither : decode 0b00000000000000000000000000000110#32 = .ok .dither := by decide
theorem test_decode_render : decode 0b00000000000000000000000000000111#32 = .ok .render := by decide
theorem test_decode_reserved_bits : decode 0x00000103#32 = .reject .reservedBits := by decide
theorem test_decode_top_bit : decode 0x80000000#32 = .reject .reservedBits := by decide
theorem test_decode_unknown : decode 0x00000008#32 = .reject .unknownOpcode ∧
    decode 0x000000FF#32 = .reject .unknownOpcode := by decide
theorem test_decode_truncated : decodeBytes [3#8, 0#8, 0#8] = .reject .truncated := by decide
theorem test_decode_lanes : decodeBytes [3#8, 0#8, 0#8, 0#8, 9#8] = .ok (.sine, [9#8]) := by decide
theorem test_table_rows : (List.range 9).map (decodeTableWord 32) =
    [some .nop, some .prng, some .noise, some .sine, some .eval, some .fill, some .dither, some .render,
      none] := by decide

/-! ## Binary32: vectors of 49_host_animator.md and 95_test_vectors.md -/

/-- V-E8: k = 8 differs from the nearest decimal by one ulp; R258's 1.22. -/
theorem test_frequencyOf : [0, 8, 17, 36, 93, 99].map (fun k => frequencyOf (BitVec.ofNat 32 k)) =
    [0x3F000000#32, 0x3F28F5C2#32, 0x3F570A3E#32, 0x3F9C28F6#32, 0x40170A3E#32, 0x401EB852#32] := by
  decide +kernel

/-- V-E8. -/
theorem test_noiseScaleOf : [0, 13, 49].map (fun k => noiseScaleOf (BitVec.ofNat 32 k)) =
    [0x00000000#32, 0x3C54FDF4#32, 0x3D48B439#32] := by decide +kernel

/-- V-E9: a NaN goes to 0.1, 100.0 to 4.0, 1.0 to 1.1 and 0.9. -/
theorem test_steppedFrequency :
    steppedFrequency true 0x7FC00000#32 = 0x3DCCCCCD#32 ∧ steppedFrequency true 0x42C80000#32 = 0x40800000#32 ∧
    steppedFrequency true 0x3F800000#32 = 0x3F8CCCCD#32 ∧ steppedFrequency false 0x3F800000#32 = 0x3F666666#32 := by
  decide +kernel

/-- R166: the root and the scaled corner distance. -/
theorem test_sqrt_corner : fsqrt 0x3F000000#32 = 0x3F3504F3#32 ∧
    fmul 0x3F3504F3#32 BlockParameters.default.radialScale = 0x3F7FFFFF#32 := by decide +kernel

/-- R178: atan2(±0, x < 0) is ±f32(0x40490FDB), −∞ included, atan2(+0, +0) is +0. -/
theorem test_atan2_axis : atan2F32 .nearest 0#32 0xBF000000#32 = 0x40490FDB#32 ∧
    atan2F32 .nearest 0x80000000#32 0xFF800000#32 = 0xC0490FDB#32 ∧ atan2F32 .nearest 0#32 0#32 = 0#32 := by decide +kernel

/-! ## Commands: at most two tests each -/

/-- V-X row 1. -/
theorem test_nop_keeps_result :
    nextHas (exec .nop { block 4 2 with result := 0x12345678#32, busy := true }) (fun t =>
      t.result == 0x12345678#32 && t.statusWord == 0#32) = true := by decide

/-- V-P. -/
theorem test_prng_all_ones :
    nextHas (exec .prng { block 4 2 with arg0 := 0xFFFFFFFF#32 }) (fun t =>
      t.arg0 == 0x0003E01F#32 && t.result == 0x0003E01F#32) = true := by decide

/-- V-P. -/
theorem test_prng_top_bit :
    nextHas (exec .prng { block 4 2 with arg0 := 0x80000000#32 }) (fun t => t.result == 0x80084000#32) = true := by
  decide

/-- V-N1: the seed is ARG2. -/
theorem test_noise_seed_is_arg2 :
    nextHas (exec .noise { block 4 2 with arg0 := 3#32, arg1 := 2#32, arg2 := 0xDEADBEEF#32 }) (fun t =>
      t.result == 226#32) = true := by decide

/-- V-N1. -/
theorem test_noise_minus_one :
    nextHas (exec .noise { block 4 2 with arg0 := 0xFFFFFFFF#32 }) (fun t => t.result == 125#32) = true := by decide

/-- V-S: a negative entry is sign-extended. -/
theorem test_sine_sign_extends :
    nextHas (exec .sine { block 4 2 with arg0 := 0x3D#32 }) (fun t => t.result == 0xFFFFFFED#32) = true := by decide

/-- V-S: bits 31:8 are ignored. -/
theorem test_sine_ignores_high_bits :
    nextHas (exec .sine { block 4 2 with arg0 := 0x140#32 }) (fun t => t.result == 0#32) = true := by decide

/-- R6: another table, with entry 3 at −64, is what SINE reads. -/
theorem test_sine_of_another_table :
    nextHas (exec .sine 
      { block 4 2 with
        arg0 := 3#32
        block := { BlockParameters.default with sineTable := [0, 6, 12, -64] ++ defaultSineTable.drop 4 } })
      (fun t => t.result == 0xFFFFFFC0#32) = true := by decide

/-- V-K, column (100, 10): one value per kind. -/
theorem test_eval_every_kind :
    (List.range 10).map (fun k => (evaluate (pat k 0x3F800000 0 false) 0 100 10).toNat) =
      [199, 39, 160, 119, 1, 199, 165, 255, 182, 144] := by decide +kernel

/-- V-X: a coordinate past the canvas is BAD_COORD and RESULT stays. -/
theorem test_eval_bad_coord :
    nextHas (exec .eval { block 128 64 with arg0 := 128#32, result := 7#32 }) (fun t =>
      t.statusWord == 0x22#32 && t.result == 7#32) = true := by decide

/-- R181: the 4 × 2 gradient. -/
theorem test_fill_gradient :
    nextHas (exec .fill (block 4 2)) (fun t =>
      t.canvas == cellsFrom 0 (bytes [0, 63, 127, 191, 0, 63, 127, 191])) = true := by decide +kernel

/-- V-D1. -/
theorem test_dither_v_d1 :
    nextHas (exec .dither ((block 4 2).setCanvasBytes (bytes [200, 100, 50, 130, 10, 250, 127, 128]))) (fun t =>
      t.canvas == cellsFrom 0 (bytes [255, 0, 0, 255, 0, 255, 255, 0])) = true := by decide +kernel

/-- V-D4: one column sends only the below share. -/
theorem test_dither_one_column :
    ditherBytes 1 3 (bytes [100, 100, 100]) = bytes [0, 255, 0] := by decide +kernel

/-- V-R2. -/
theorem test_render_radial :
    nextHas (exec .render { block 4 2 with kind := 2#32 }) (fun t =>
      t.canvas == cellsFrom 0 (bytes [255, 255, 255, 255, 255, 0, 0, 0])) = true := by decide +kernel

/-! ## Evaluator corners -/

/-- V-C: kind 5 at frequency 4.0 reaches the argument 268, angle 12. -/
theorem test_cosine_past_8_bits : evaluate (pat 5 0x40800000 0 false) 0 5 63 = 245#8 := by decide +kernel

/-- V-O: the overlay with and without inversion. -/
theorem test_overlay_and_invert :
    evaluate (pat 0 0x3F800000 0x3D4CCCCD false) 0 64 32 = 163#8 ∧
    evaluate (pat 0 0x3F800000 0x3D4CCCCD true) 0 64 32 = 91#8 := by decide +kernel

/-- V-C: a NaN frequency makes the angle a draw. -/
theorem test_nan_angle_is_a_draw (k : Nat) : truncAngle 0x7FC00000#32 k = angleDraw k := rfl

/-- V-C: −1.0 is not above −1, so the angle is a draw, and −0.0 is angle 0. -/
theorem test_angle_at_minus_one (k : Nat) :
    truncAngle 0xBF800000#32 k = angleDraw k ∧ truncAngle 0x80000000#32 k = 0#6 := ⟨rfl, rfl⟩

/-! ## Engine, bus and host -/

/-- V-X: an illegal word after BAD_COORD overwrites ERRCODE. -/
theorem test_illegal_word_overwrites_code :
    nextHas (step { block 4 2 with cl := 8#32, busy := true, err := true, errCode := 2#4 }) (fun t =>
      t.statusWord == 0x12#32) = true := by decide

/-- The placed word is fetched and run by the next step. -/
theorem test_withFetchWord_runs (w : Nat) (hw : w = 3) :
    step (State.reset.withFetchWord 32 w) = exec .sine (State.reset.withFetchWord 32 w) := by
  subst hw; rfl

/-- V-X: only bit 1 of a STATUS write clears. -/
theorem test_status_write_one_to_clear :
    ({ block 4 2 with err := true, errCode := 2#4 }.writeStatus 2#32).statusWord = 0#32 ∧
    ({ block 4 2 with err := true, errCode := 2#4 }.writeStatus 1#32).statusWord = 0x22#32 := by decide

/-- V-M: misaligned, wrong width, unmapped, past the canvas. -/
theorem test_bus_errors :
    [(0x000002#24, 4), (0x000004#24, 2), (0x000038#24, 4), (0x100000#24, 4), (0x102000#24, 1)].map
      (fun x : BusAddr × Nat => ((block 128 64).busRead x.1 x.2).1.faults) =
    [[.busError 0x000002#24], [.busError 0x000004#24], [.busError 0x000038#24], [.busError 0x100000#24],
      [.busError 0x102000#24]] := by decide

/-- V-M: CTRL keeps bit 0, a canvas write keeps bits 7:0. -/
theorem test_bus_writes :
    ((block 4 2).busWrite 0x00002C#24 4 0xFFFFFFFF#32).readReg .ctrl = 1#32 ∧
    ((block 4 2).busWrite 0x100005#24 1 0x1AB#32).canvasByte 5 = 0xAB#8 := by decide

/-- V-M, P6: while BUSY = 1 a RESULT read is a hazard and a STATUS read is not. -/
theorem test_busy_hazard :
    (({ block 4 2 with busy := true }).busRead 0x000018#24 4).1.faults = [.hazardAccess 0x000018#24] ∧
    (({ block 4 2 with busy := true }).busRead 0x000004#24 4).2 = some 1#32 := by decide

/-- V-H, SEED 42 and frame 30: the accesses the four decisions call for. -/
theorem test_mutation_decisions :
    mutationOps 0x012909CC#32 0x2203A144#32 0x934A4071#32 0xB3C5B7B3#32 =
      [opWr .kind 7#32, opWr .freq 0x3F9C28F6#32, opWr .nscale 0x3C54FDF4#32] := by decide +kernel

/-- R97 and R96: `sine 0x10` as (address, width, value). -/
theorem test_sine_pseudo : (Stmt.sine 0x10#32).expand =
    [.write 0x00000C#24 4 0x10#32, .write 0x000008#24 4 3#32, .wait, .read 0x000018#24 4] := by decide

/-! ## Witnesses: a state and operands that meet each statement's hypotheses -/

theorem test_witness_unwritten_byte :
    (block 4 2).busy = false ∧ 7 < (block 4 2).cells ∧ (block 4 2).cells ≤ 2 ^ 20 ∧
    cellFind 7 (block 4 2).canvas = none ∧ (0 : Nat) ≠ 7 := by decide

theorem test_witness_inv_step : ∃ s t, State.Inv s ∧ step s = .next t :=
  ⟨State.resetOf 1 1 .default, _, by decide, rfl⟩

theorem test_witness_inv_limits : dimsOk 1048576 1 = true ∧ dimsOk 1 1 = true ∧ BlockParameters.default.ok = true := by
  decide

theorem test_witness_illegal_word :
    ({ block 4 2 with busy := true, cl := 0x08#32 }).engineTurn = true ∧
    0x08 ≤ (0x08#32 : Word).toNat % 256 ∧ (0x100#32 : Word).toNat / 256 ≠ 0 := by decide

theorem test_witness_engine_turn :
    ∃ s : State, s.busy = true ∧ (s.polls = 0 ∨ s.program = []) ∧ decode s.cl = .ok .render :=
  ⟨{ block 4 2 with busy := true, cl := 7#32 }, by decide⟩

theorem test_witness_host_turn :
    ∃ s : State, s.busy = true ∧ s.polls ≠ 0 ∧ s.program ≠ [] ∧ s.engineTurn = false :=
  ⟨{ block 4 2 with busy := true, polls := 2, program := [.wait] }, by decide⟩

theorem test_witness_nop_example :
    ∃ s t : State, s.result = 0x12345678#32 ∧ s.err = false ∧ s.errCode = 0#4 ∧ exec .nop s = .next t :=
  ⟨{ block 4 2 with result := 0x12345678#32 }, _, rfl, rfl, rfl, rfl⟩

theorem test_witness_sine_examples : ∃ s t : State, s.block.sineTable = Sys2Proof.Claims.sineRows ∧
    sineTableOk s.block.sineTable = true ∧ s.arg0 = 0x00000140#32 ∧ exec .sine s = .next t :=
  ⟨{ block 4 2 with arg0 := 0x140#32 }, _, rfl, by decide, rfl, rfl⟩

theorem test_witness_noise_next : ∃ s t : State, exec .noise s = .next t := ⟨block 4 2, _, rfl⟩

theorem test_witness_finite_operands :
    fIsFinite 0x7F7FFFFF#32 = true ∧ fIsFinite 0x80000001#32 = true ∧ fIsZero 0x80000001#32 = false ∧
    fIsFinite (fadd 0x7F7FFFFF#32 0x80000001#32) = true ∧ fIsFinite (fsub 0x3F800000#32 0x80000001#32) = true ∧
    fIsFinite (fmul 0x7F7FFFFF#32 0x80000001#32) = true ∧
    fIsFinite (fdiv 0x3F800000#32 0x3F000000#32) = true := by decide +kernel

/-- The threshold's two sides: 2^127 doubled overflows, the largest finite value less the least does not; a NaN, both
infinities and both zeros; 2^24 is exact. -/
theorem test_witness_special_operands :
    fadd 0x7F000000#32 0x7F000000#32 = 0x7F800000#32 ∧ fmul 0xFF7FFFFF#32 0x7F7FFFFF#32 = 0xFF800000#32 ∧
    fIsFinite 0x7F000000#32 = true ∧ fIsNaN 0x7FC00000#32 = true ∧ fIsInf 0xFF800000#32 = true ∧
    fIsZero 0x80000000#32 = true ∧ fIsZero 0#32 = true ∧ fSign 0xFF800000#32 = true ∧
    cvtF32 16777216 = 0x4B800000#32 := by decide +kernel

/-- The first try decides the angle of (1.0, 1.0), which is f32(π/4). -/
theorem test_witness_angle_decided : fIsFinite 0x3F800000#32 = true ∧ fIsZero 0x3F800000#32 = false ∧
    16 ∈ atanTries ∧
    enclosureMag (upperAngle 16 false (fAbsUnits 0x3F800000#32) (fAbsUnits 0x3F800000#32)) = some 0x3F490FDB := by
  decide +kernel

theorem test_witness_angle_axis : fIsZero 0x80000000#32 = true ∧ flt 0xFF800000#32 0#32 = true ∧
    flt 0x80000001#32 0#32 = true ∧ Atan2Parameter.ok .library = true ∧ Atan2Parameter.ok .nearest = true ∧
    fle 0xC0490FDB#32 0x40490FDB#32 = true := by decide

theorem test_witness_root_operand : fIsFinite 0x7F7FFFFF#32 = true ∧ fSign 0x7F7FFFFF#32 = false := by decide

theorem test_witness_conversion_bounds :
    (fIsFinite 0xBF7FFFFF#32 = true ∧ -(2 ^ 149) < fUnits 0xBF7FFFFF#32 ∧ fUnits 0xBF7FFFFF#32 < 2 ^ 180) ∧
    ¬(-(2 ^ 149) < fUnits 0xBF800000#32) ∧ ¬(fUnits 0x4F000000#32 < 2 ^ 180) ∧
    -(2 ^ 180) ≤ fUnits 0xCF000000#32 ∧ fUnits 0x4EFFFFFF#32 < 2 ^ 180 := by decide +kernel

theorem test_witness_normalise : (1048575 : Nat) < 1048576 ∧ 1048576 ≤ 2 ^ 20 := by decide

theorem test_witness_kind_out_of_range : 9 < (pat 10 0x3F800000 0 false).kind.toNat ∧
    ∃ s t : State, 9 < s.kind.toNat ∧ s.arg0.toNat < s.width ∧ s.arg1.toNat < s.height ∧ exec .eval s = .next t :=
  ⟨by decide, { block 4 2 with kind := 10#32 }, _, by decide, by decide, by decide, rfl⟩

/-- The documented ends of the frequency and of the noise scale. -/
theorem test_witness_documented_path :
    fle 0x3DCCCCCD#32 0x3DCCCCCD#32 = true ∧ fle 0x40800000#32 0x40800000#32 = true ∧
    fle 0#32 0#32 = true ∧ fle 0x3D4CCCCD#32 0x3D4CCCCD#32 = true ∧ dimsOk 128 64 = true := by decide

theorem test_witness_rejected_word : ∃ s : State, s.cl = 0x80000000#32 ∧ decode s.cl = .reject .reservedBits :=
  ⟨{ block 4 2 with cl := 0x80000000#32 }, by decide⟩

theorem test_witness_legal_command : ∃ s t : State, decode s.cl = .ok .eval ∧ s.arg0.toNat < s.width ∧
    s.arg1.toNat < s.height ∧ engineStep s = .next t :=
  ⟨{ block 4 2 with cl := 4#32 }, _, by decide, by decide, by decide, rfl⟩

theorem test_witness_gradient :
    (pat 1 0x3F800000 0 false).width = 128 ∧ (pat 1 0x3F800000 0 false).height = 64 ∧ 127 < 128 ∧ 63 < 64 ∧
    (pat 1 0x3F800000 0 false).kind = 1#32 ∧ (pat 0 0x3F800000 0 false).kind = 0#32 ∧
    (pat 1 0x3F800000 0 false).invert = false ∧ flt 0#32 (pat 1 0x3F800000 0 false).nscale = false := by decide

theorem test_witness_overlay_on_and_off :
    flt 0#32 0x00000001#32 = true ∧ flt 0#32 0x80000000#32 = false ∧ flt 0#32 0x7FC00000#32 = false ∧
    flt 0#32 0x00000000#32 = false := by decide

theorem test_witness_kinds :
    (pat 8 0x3F800000 0 false).kind = 8#32 ∧ (pat 8 0x3F800000 0 false).invert = false ∧
    (pat 7 0x7FC00000 0 true).kind = 7#32 ∧ flt 0#32 (pat 7 0x7FC00000 0 true).nscale = false ∧
    sineTableOk (pat 6 0x7FC00000 0 true).block.sineTable = true ∧ (pat 6 0x7FC00000 0 true).kind ∈ [4#32, 5#32, 6#32] := by decide

theorem test_witness_legal_pixel :
    (pat 9 0 0 false).block.ok = true ∧ (pat 9 0 0 false).block = .default ∧
    (pat 9 0 0 false).block.radialScale = 0x3FB504F3#32 ∧ (pat 9 0 0 false).block.twoPi = 0x40C90FDB#32 ∧
    (pat 9 0 0 false).block.blendA = 0x3F333333#32 ∧ (pat 9 0 0 false).block.blendB = 0x3E99999A#32 ∧
    dimsOk (pat 9 0 0 false).width (pat 9 0 0 false).height = true ∧ 127 < (pat 9 0 0 false).width ∧
    63 < (pat 9 0 0 false).height := by decide

theorem test_witness_unit_values :
    fle 0#32 0x80000000#32 = true ∧ fle 0x3F800000#32 0x3F800000#32 = true ∧
    fIsFinite 0xFF7FFFFF#32 = true ∧ flt 0x80000001#32 0#32 = true ∧ flt 0x3F800000#32 0x3F800001#32 = true ∧
    fIsNaN 0x7FC00000#32 = true := by decide

theorem test_witness_eval_inside :
    ∃ s : State, s.arg0.toNat < s.width ∧ s.arg1.toNat < s.height ∧ s.arg0 = 127#32 ∧ s.arg1 = 32#32 ∧
      s.kind = 0#32 ∧ s.nscale = 0#32 ∧ s.invert = false ∧ s.width = 128 ∧ s.height = 64 :=
  ⟨{ block 128 64 with arg0 := 127#32, arg1 := 32#32 }, by decide⟩

theorem test_witness_eval_outside :
    ∃ s : State, (s.width ≤ s.arg0.toNat ∨ s.height ≤ s.arg1.toNat) ∧ s.arg0 = 128#32 ∧ s.width = 128 :=
  ⟨{ block 128 64 with arg0 := 128#32 }, by decide⟩

theorem test_witness_small_canvas :
    (block 4 2).width = 4 ∧ (block 4 2).height = 2 ∧ (block 4 2).kind = 0#32 ∧ (block 4 2).nscale = 0#32 ∧
    (block 4 2).invert = false := by decide

theorem test_witness_dither_list :
    (bytes [1, 2, 3, 4, 5, 6, 7, 8]).length = 4 * 2 ∧ 7 < 4 * 2 := by decide

theorem test_witness_mid_grey :
    2 ≤ (block 2 2).width ∧ 2 ≤ (block 2 2).height ∧
    ∀ i, i < 2 * 2 → ((block 2 2).setCanvasBytes (bytes [127, 127, 127, 127])).canvasByte i = 127#8 := by
  decide +kernel

theorem test_witness_binary_canvas :
    ∀ i, i < 2 * 2 → ((block 2 2).setCanvasBytes (bytes [0, 255, 255, 0])).canvasByte i = 0#8 ∨
      ((block 2 2).setCanvasBytes (bytes [0, 255, 255, 0])).canvasByte i = 255#8 := by decide +kernel

/-- Two blocks with the same bytes and different registers. -/
theorem test_witness_same_bytes :
    ∃ s u : State, s.width = u.width ∧ s.height = u.height ∧ s.kind ≠ u.kind ∧
      ∀ i, i < s.width * s.height → s.canvasByte i = u.canvasByte i :=
  ⟨block 2 2, { block 2 2 with kind := 3#32 }, rfl, rfl, by decide, fun _ _ => rfl⟩

theorem test_witness_uniform_canvas :
    ∀ i, i < 2 * 2 → ((block 2 2).setCanvasBytes (bytes [255, 255, 255, 255])).canvasByte i = 255#8 := by
  decide +kernel

theorem test_witness_dithered : ∃ (i : Instr) (s t : State), i ∈ [Instr.dither, Instr.render] ∧
    exec i s = .next t ∧ 7 < s.width * s.height := ⟨.dither, block 4 2, _, by decide, rfl, by decide⟩

theorem test_witness_render_pair : ∃ (s t u : State), exec .render s = .next t ∧
    exec .render { s with canvas := [(0, 9#8)], resets := 5 } = .next u ∧ 7 < s.width * s.height :=
  ⟨block 4 2, _, _, rfl, rfl, by decide⟩

theorem test_witness_every_command_answers : ∀ i : Instr, ∃ s t : State, exec i s = .next t :=
  fun i => ⟨block 4 2, exec_isNext i (block 4 2)⟩

theorem test_witness_engine_step : ∃ s t : State, s.engineTurn = true ∧ step s = .next t ∧ engineStep s = .next t :=
  ⟨{ block 4 2 with busy := true }, _, by decide, rfl, rfl⟩

theorem test_witness_busy_cleared_by_reset :
    ∃ s t : State, step s = .next t ∧ s.busy = true ∧ s.engineTurn = false ∧ t.busy = false :=
  ⟨{ block 4 2 with busy := true, polls := 1, program := [.platformReset] }, _, rfl, rfl, by decide, rfl⟩

theorem test_witness_busy_set_by_cmd_write :
    ∃ s t : State, step s = .next t ∧ s.busy = false ∧ t.busy = true :=
  ⟨{ block 4 2 with program := [opCmd .fill] }, _, rfl, rfl, rfl⟩

/-- ERR is cleared by a STATUS write with bit 1 = 1, and by the reset event while a command is pending. -/
theorem test_witness_err_cleared :
    (∃ s t : State, step s = .next t ∧ s.engineTurn = false ∧ s.err = true ∧ t.err = false ∧ s.busy = false) ∧
    ∃ s t : State, step s = .next t ∧ s.engineTurn = false ∧ s.errCode ≠ t.errCode ∧ s.busy = true :=
  ⟨⟨{ block 4 2 with err := true, errCode := 2#4, program := [opWr .status 2#32] }, _, rfl, rfl, rfl, rfl, rfl⟩,
    { block 4 2 with err := true, errCode := 1#4, busy := true, polls := 1, program := [.platformReset] }, _, rfl, rfl,
    by decide, rfl⟩

theorem test_witness_status_bit : (2#32 : Word).getLsbD 1 = true ∧ (1#32 : Word).getLsbD 1 = false := by decide

theorem test_witness_bus_ranges :
    (0x000034#24 : BusAddr).toNat < 0x38 ∧ (0x000034#24 : BusAddr).toNat % 4 = 0 ∧
    0x100000 ≤ (0x100007#24 : BusAddr).toNat ∧ (0x100007#24 : BusAddr).toNat < 0x100000 + 4 * 2 ∧
    (block 4 2).busy = false ∧ 7 < (block 4 2).cells ∧ (block 4 2).cells ≤ 2 ^ 20 := by decide

theorem test_witness_busy_access :
    ({ block 4 2 with busy := true }).busy = true ∧ ¬((0x000004#24 : BusAddr) = 0x000004#24 ∧ (2 : Nat) = 4) := by
  decide

theorem test_witness_shielded :
    ∃ s t : State, s.busy = true ∧ s.engineTurn = false ∧ step s = .next t :=
  ⟨{ block 4 2 with busy := true, polls := 1, program := [opWr .seed 9#32] }, _, rfl, by decide, rfl⟩

theorem test_witness_fault_kept :
    ∃ s t : State, step s = .next t ∧ FaultRecord.busError 2#24 ∈ s.faults :=
  ⟨{ block 4 2 with faults := [.busError 2#24] }, _, rfl, by decide⟩

theorem test_witness_wait : (({ block 4 2 with program := [.wait] }) : State).program = .wait :: [] := rfl

theorem test_witness_count_frame :
    ∃ s : State, s.engineTurn = false ∧ s.program = .compute .countFrame :: [] ∧ s.frameCount + 1#32 ≠ 0#32 :=
  ⟨{ block 4 2 with program := [.compute .countFrame], frameCount := 29#32 }, by decide⟩

theorem test_witness_procedures : ∀ p : Procedure, ∃ s : State, s.busy = false ∧ s.cells ≤ 2 ^ 20 ∧
    s.program = .call p :: [] :=
  fun p => ⟨{ block 4 2 with program := [.call p] }, rfl, (by decide : 4 * 2 ≤ 2 ^ 20), rfl⟩

theorem test_witness_startup :
    ∃ s : State, s.program = .platformReset :: .call .startup :: [] ∧ s.engineTurn = false :=
  ⟨{ block 4 2 with program := [.platformReset, .call .startup] }, by decide⟩

theorem test_witness_frequency_bounds :
    fle 0x3DCCCCCD#32 0x40800000#32 = true ∧ fle 0x40800000#32 0x40800000#32 = true ∧
    flt 0x40800000#32 0x40800001#32 = true ∧ fle 0x3DCCCCCD#32 0x7FC00000#32 = false ∧
    fle 0x3DCCCCCD#32 0x3DCCCCCC#32 = false := by decide

theorem test_witness_decodable : ∃ (bs rest : List (BitVec 8)), decodeBytes bs = .ok (.eval, rest) :=
  ⟨[4#8, 0#8, 0#8, 0#8, 1#8], [1#8], by decide⟩

theorem test_witness_prng_nonzero : (1#32 : Word) ≠ 0#32 ∧ 0 < 5 := by decide

theorem test_witness_angle_points : (0 < 0 ∨ 0 < 3) ∧ (0 < 2 ∨ 0 < 0) ∧ 0 < 1 := by decide

end Sys2Proof.Tests
end

section
/-! PROOFS. The statements of 10_state.md about STATUS, CMD, the fault set and the constant registers. -/

namespace Sys2Proof.Machine

/-! ## The reserved bits of STATUS -/

@[simp] theorem State.readReg_status (s : State) : s.readReg .status = s.statusWord := rfl

/-- The reserved bits of STATUS read 0 in every state (10_state.md R26), so also after any write. -/
theorem State.readReg_status_reserved (s : State) {k : Nat} (hk : k = 2 ∨ k = 3 ∨ 8 ≤ k) :
    (s.readReg .status).getLsbD k = false := by
  rw [State.readReg_status, State.statusWord_getLsbD, if_neg (by omega), if_neg (by omega), if_neg (by omega)]

theorem State.statusWord_bit1 (s : State) : s.statusWord.getLsbD 1 = s.err := by
  rw [State.statusWord_getLsbD, if_neg (by omega), if_pos rfl]

/-! ## What every step keeps: the parameters and the fault records -/

/-- The parameters of 00_scope.md R6 are the same in both states. -/
abbrev State.SameParameters (s t : State) : Prop :=
  t.width = s.width ∧ t.height = s.height ∧ t.block = s.block

/-- No command writes a parameter or the fault set. -/
theorem exec_parameters_faults {i : Instr} {s t : State} (h : exec i s = .next t) :
    s.SameParameters t ∧ t.faults = s.faults := by
  rcases exec_cases h with ⟨-, rfl⟩ | ⟨-, rfl⟩ | ⟨-, rfl⟩ | ⟨-, rfl⟩ | ⟨-, -, rfl⟩ | ⟨-, -, rfl⟩ |
    ⟨-, rfl⟩ | ⟨-, rfl⟩ | ⟨-, rfl⟩ <;> exact ⟨⟨rfl, rfl, rfl⟩, rfl⟩

/-- Neither does the engine's step, which performs a command or raises ILLEGAL_CMD. -/
theorem engineStep_parameters_faults {s t : State} (h : engineStep s = .next t) :
    s.SameParameters t ∧ t.faults = s.faults := by
  rcases engineStep_cases h with ⟨i, -, hi⟩ | ⟨r, -, rfl⟩
  · exact exec_parameters_faults hi
  · exact ⟨⟨rfl, rfl, rfl⟩, rfl⟩

theorem State.faults_subset_recordFault (s : State) (f : FaultRecord) : s.faults ⊆ (s.recordFault f).faults :=
  fun g hg => (mem_faultInsert f g s.faults).mpr (.inr hg)

theorem State.busWrite_parameters_faults (s : State) (a : BusAddr) (n : Nat) (v : Word) :
    s.SameParameters (s.busWrite a n v) ∧ s.faults ⊆ (s.busWrite a n v).faults := by
  rcases s.busWrite_cases a n v with ⟨f, e⟩ | ⟨-, r, e⟩ | ⟨-, i, -, e⟩ <;> rw [e]
  · exact ⟨⟨rfl, rfl, rfl⟩, s.faults_subset_recordFault f⟩
  · simp [State.SameParameters]
  · simp [State.SameParameters]

/-- A statement of the host's changes no parameter, and of the fault set it only adds to it. -/
theorem hostOp_parameters_faults (op : HostOp) (s : State) :
    s.SameParameters (hostOp op s) ∧ s.faults ⊆ (hostOp op s).faults := by
  rcases hostOp_cases op s with ⟨-, e⟩ | ⟨a, n, v, -, e⟩ | ⟨hblock, -, hfaults⟩
  · simp [e, State.SameParameters]
  · rw [e]; exact s.busWrite_parameters_faults a n v
  · obtain ⟨-, -, -, -, -, -, -, -, -, -, -, -, -, hw, hh, hb, -⟩ := hblock
    refine ⟨⟨hw, hh, hb⟩, ?_⟩
    rcases hfaults with e | ⟨f, e⟩ <;> rw [e]
    · exact List.Subset.refl _
    · exact s.faults_subset_recordFault f

theorem hostStep_parameters_faults (s : State) :
    s.SameParameters (hostStep s) ∧ s.faults ⊆ (hostStep s).faults := by
  cases hp : s.program with
  | nil => simp [hostStep, hp, State.SameParameters]
  | cons op rest =>
    rw [hostStep_cons hp]
    exact hostOp_parameters_faults op { s with program := rest, polls := s.polls - 1 }

theorem step_parameters_faults {s t : State} (h : step s = .next t) :
    s.SameParameters t ∧ s.faults ⊆ t.faults := by
  rcases step_cases h with ⟨-, he⟩ | ⟨-, rfl⟩
  · obtain ⟨hp, hf⟩ := engineStep_parameters_faults he
    exact ⟨hp, hf ▸ List.Subset.refl _⟩
  · exact hostStep_parameters_faults s

/-- On its turn the step is the engine's. -/
theorem step_engine {s : State} (h : s.engineTurn = true) : step s = engineStep s := by simp [step, h]

/-! ## The statements -/

/-- Settles O42, from the bits of the STATUS word: no state, so no written one, has a reserved bit set, and the
32-bit read of STATUS is performed in every state. -/
theorem statusReservedBitsReadZero : Obligations.StatusReservedBitsReadZero := by
  unfold Obligations.StatusReservedBitsReadZero
  intro s
  exact ⟨fun _ hk => s.readReg_status_reserved hk, fun v _ hk => (s.writeReg .status v).readReg_status_reserved hk,
    s.statusWord_bit0, s.statusWord_bit1, s.statusWord_errCode, s.busRead_status⟩

/-- Settles O50, by the cases of a step: the engine leaves the set, a host step only adds to it. -/
theorem faultRecordsAreNeverCleared : Obligations.FaultRecordsAreNeverCleared := by
  unfold Obligations.FaultRecordsAreNeverCleared
  refine ⟨rfl, fun s t h f hf => ?_, fun s t h hturn => ?_, mem_faultInsert⟩
  · obtain ⟨-, hfaults⟩ := step_parameters_faults h
    exact hfaults hf
  · rw [step_engine hturn] at h
    obtain ⟨-, hfaults⟩ := engineStep_parameters_faults h
    exact hfaults

/-- Settles O51: the reads and the ignored writes are equations of the register file, and no step changes a
parameter. -/
theorem idWidthHeightNeverChange : Obligations.IdWidthHeightNeverChange := by
  unfold Obligations.IdWidthHeightNeverChange
  refine ⟨fun _ => ⟨rfl, rfl, rfl⟩, rfl, rfl, rfl, fun _ _ => ⟨rfl, rfl, rfl⟩, fun s t h => ?_⟩
  obtain ⟨hparameters, -⟩ := step_parameters_faults h
  exact hparameters

/-- Settles O45: while BUSY = 0 the write reaches CMD, whose write issues the word; while BUSY = 1 the hazard rule
comes first. -/
theorem cmdWriteLatchesTheWord : Obligations.CmdWriteLatchesTheWord := by
  unfold Obligations.CmdWriteLatchesTheWord
  refine ⟨fun s v hidle => ?_, fun s v hbusy => ?_, fun _ => rfl, rfl, rfl⟩
  · have hissue : s.busWrite (regOffset .cmd) 4 v = s.issue v := s.busWrite_reg .cmd v hidle
    exact ⟨Config.freePolls s.draws, s.draws + 1, hissue⟩
  · exact s.busWrite_busy 0x000008#24 4 v hbusy

end Sys2Proof.Machine
end

section
/-! PROOFS. The statements of 20_memory.md: what a host write of each register and canvas byte stores and leaves, and
which accesses are performed while BUSY = 0. -/

namespace Sys2Proof.Machine

/-! ## What a register reads after a write of it (20_memory.md R65) -/

theorem State.readReg_writeReg_stored (s : State) (v : Word) {r : Reg}
    (hr : r ∈ [Reg.arg0, .arg1, .arg2, .seed, .kind, .freq, .nscale]) : (s.writeReg r v).readReg r = v := by
  fin_cases hr <;> rfl

theorem State.writeReg_ignored (s : State) (v : Word) {r : Reg} (hr : r ∈ [Reg.id, .result, .width, .height]) :
    s.writeReg r v = s := by
  fin_cases hr <;> rfl

/-- Only bit 0 of CTRL is kept (10_state.md R36). -/
theorem State.readReg_writeReg_ctrl (s : State) (v : Word) : (s.writeReg .ctrl v).readReg .ctrl = v &&& 1#32 :=
  BitVec.and_one_eq_setWidth_ofBool_getLsbD.symm

/-- While BUSY = 0, a STATUS write with bit 1 = 1 leaves no bit of STATUS set (10_state.md R23-R26). -/
theorem State.readReg_writeReg_status (s : State) (v : Word) (hidle : s.busy = false) :
    (s.writeReg .status v).readReg .status = if v.getLsbD 1 then 0#32 else s.readReg .status := by
  simp only [State.writeReg, State.writeStatus]
  split
  · simp only [State.readReg_status, State.statusWord, hidle]; rfl
  · rfl

/-! ## What a register write leaves unchanged -/

/-- The STATUS bits, the latch and the schedule are read by no register but STATUS. -/
theorem State.readReg_of_ne_status (s : State) {r : Reg} (hr : r ≠ .status) (b e : Bool) (c : BitVec 4) (w : Word)
    (n d : Nat) :
    { s with busy := b, err := e, errCode := c, cl := w, polls := n, draws := d }.readReg r = s.readReg r := by
  cases r
  case status => exact absurd rfl hr
  all_goals rfl

theorem State.readReg_writeReg_cmd (s : State) (v : Word) {r : Reg} (hr : r ≠ .status) :
    (s.writeReg .cmd v).readReg r = s.readReg r :=
  s.readReg_of_ne_status hr true s.err s.errCode v (Config.freePolls s.draws) (s.draws + 1)

theorem State.readReg_writeReg_of_ne (s : State) (v : Word) {r r' : Reg} (hne : r' ≠ r) (hr : r ≠ .cmd) :
    (s.writeReg r v).readReg r' = s.readReg r' := by
  cases r
  case cmd => exact absurd rfl hr
  case status =>
    rcases s.writeStatus_cases v with e | e <;> rw [State.writeReg, e]
    exact s.readReg_of_ne_status hne s.busy false 0#4 s.cl s.polls s.draws
  all_goals cases r' <;> simp [State.readReg, State.writeReg, State.statusWord] at hne ⊢

@[simp] theorem State.writeReg_canvasByte (s : State) (r : Reg) (v : Word) (i : Nat) :
    (s.writeReg r v).canvasByte i = s.canvasByte i := by simp [State.canvasByte]

/-- Beside the register file, a register write other than CMD's changes nothing. -/
theorem State.writeReg_frame (s : State) (v : Word) {r : Reg} (hr : r ≠ .cmd) :
    (s.writeReg r v).busy = s.busy ∧ (s.writeReg r v).cl = s.cl ∧ (s.writeReg r v).draws = s.draws ∧
      (s.writeReg r v).polls = s.polls ∧ s.SameHost (s.writeReg r v) := by
  cases r
  case cmd => exact absurd rfl hr
  case status => rcases s.writeStatus_cases v with e | e <;> simp [State.writeReg, e, State.SameHost]
  all_goals simp [State.writeReg, State.SameHost]

/-! ## Canvas writes and unmapped addresses -/

@[simp] theorem State.readReg_setCanvasByte (s : State) (i : Nat) (b : Byte) (r : Reg) :
    (s.setCanvasByte i b).readReg r = s.readReg r := by cases r <;> rfl

/-- An 8-bit access at an address of the canvas window reaches the byte there, whatever the canvas size
(20_memory.md R62). -/
theorem State.target_canvas (s : State) {a : BusAddr} (hlo : canvasBase ≤ a.toNat)
    (hhi : a.toNat < canvasBase + s.cells) : s.target a 1 = some (.cell (a.toNat - canvasBase)) := by
  have hwindow : ¬ a.toNat < regWindowEnd := by simp only [canvasBase, regWindowEnd] at *; omega
  rw [State.target, if_neg hwindow, if_pos ⟨hlo, hhi, rfl⟩]

section Idle
variable {s : State} {a : BusAddr} {n : Nat} (hidle : s.busy = false)
include hidle

theorem State.busRead_of_target_cell {i : Nat} (ht : s.target a n = some (.cell i)) :
    s.busRead a n = (s, some (zext32 (s.canvasByte i))) := by simp [State.busRead, hidle, ht]

theorem State.busWrite_of_target_cell {i : Nat} (ht : s.target a n = some (.cell i)) (v : Word) :
    s.busWrite a n v = s.setCanvasByte i (v.setWidth 8) := by simp [State.busWrite, hidle, ht]

theorem State.busRead_of_target_none (ht : s.target a n = none) :
    s.busRead a n = (s.recordFault (.busError a), none) := by simp [State.busRead, hidle, ht]

theorem State.busWrite_of_target_none (ht : s.target a n = none) (v : Word) :
    s.busWrite a n v = s.recordFault (.busError a) := by simp [State.busWrite, hidle, ht]

end Idle

/-! ## The statements -/

/-- Settles O46: while BUSY = 0 every write of the statement is performed, so each part is a law of the register file or
of the canvas. -/
theorem registerWritesStoreOrAreIgnored : Obligations.RegisterWritesStoreOrAreIgnored := by
  unfold Obligations.RegisterWritesStoreOrAreIgnored
  intro s v hidle
  simp only [fun r => s.busWrite_reg r v hidle]
  refine ⟨fun r hr => s.readReg_writeReg_stored v hr, fun r hr => s.writeReg_ignored v hr, s.readReg_writeReg_ctrl v,
    s.readReg_writeReg_status v hidle, rfl, rfl, rfl, fun r r' hne hr => s.readReg_writeReg_of_ne v hne hr,
    fun r hr => s.readReg_writeReg_cmd v hr, fun r i => s.writeReg_canvasByte r v i, fun r hr => ?_, rfl,
    fun i hi hc => ?_⟩
  · obtain ⟨hbusy, hcl, hdraws, hpolls, hhost⟩ := s.writeReg_frame v hr
    exact ⟨hbusy, hcl, s.writeReg_canvas r v, s.writeReg_faults r v, s.writeReg_block r v, s.writeReg_scan r v,
      s.writeReg_resets r v, hdraws, hpolls, hhost⟩
  · rw [s.busWrite_cell v hidle hi hc]
    exact ⟨rfl, s.readReg_setCanvasByte i _, fun j => s.canvasByte_setCanvasByte i j _⟩

/-- Settles O47, by what the access reaches: the register at an aligned offset, the canvas byte, or nothing. -/
theorem busAccessIsPerformedOrIsABusError : Obligations.BusAccessIsPerformedOrIsABusError := by
  unfold Obligations.BusAccessIsPerformedOrIsABusError
  intro s a n hidle
  split
  · next hreg =>
    obtain ⟨hwindow, rfl, haligned⟩ := hreg
    obtain ⟨r, hr⟩ := regAt_of_aligned hwindow haligned
    obtain rfl := regOffset_of_regAt hr
    exact ⟨r, rfl, s.busRead_reg r hidle, fun v => s.busWrite_reg r v hidle⟩
  · next hreg =>
    split
    · next hcell =>
      obtain ⟨hlo, hhi, rfl⟩ := hcell
      have ht := s.target_canvas hlo hhi
      exact ⟨State.busRead_of_target_cell hidle ht, State.busWrite_of_target_cell hidle ht⟩
    · next hcell =>
      have ht := s.target_none hreg hcell
      exact ⟨State.busRead_of_target_none hidle ht, State.busWrite_of_target_none hidle ht⟩

end Sys2Proof.Machine
end

section
/-! PROOFS. The statements of 30_encoding.md: the fields of a command word, the decoder as R94's case table, the step on
an illegal word, and the expansion of the pseudo-instructions. -/

namespace Sys2Proof

/-! ## The fields of a command word (30_encoding.md R90) -/

theorem fieldOpc_toNat (w : Word) : (fieldOpc w).toNat = w.toNat % 256 := by
  simp [fieldOpc, BitVec.extractLsb'_toNat]

theorem fieldRsv_toNat (w : Word) : (fieldRsv w).toNat = w.toNat / 256 := by
  have hw := w.isLt
  rw [fieldRsv, BitVec.extractLsb'_toNat, Nat.shiftRight_eq_div_pow]
  omega

theorem fieldRsv_eq_zero_iff (w : Word) : fieldRsv w = 0 ↔ w.toNat / 256 = 0 := by
  rw [← fieldRsv_toNat, BitVec.toNat_eq]
  rfl

/-! ## The decoder (30_encoding.md R92-R94) -/

theorem decodeOpc_opcodeOf (i : Instr) : decodeOpc (opcodeOf i) = .ok i := by cases i <;> rfl

theorem decodeOpc_eq_ok_iff (opc : BitVec 8) (i : Instr) : decodeOpc opc = .ok i ↔ opc = opcodeOf i := by
  constructor
  · intro h
    apply BitVec.eq_of_toNat_eq
    unfold decodeOpc at h
    split at h <;> cases h <;> assumption
  · rintro rfl
    exact decodeOpc_opcodeOf i

theorem decodeOpc_unknown {opc : BitVec 8} (h : 7 < opc.toNat) : decodeOpc opc = .reject .unknownOpcode := by
  unfold decodeOpc
  split
  case h_9 => rfl
  all_goals omega

theorem decode_reservedBits {w : Word} (h : w.toNat / 256 ≠ 0) : decode w = .reject .reservedBits :=
  if_neg (mt (fieldRsv_eq_zero_iff w).mp h)

theorem decode_of_reserved_zero {w : Word} (h : w.toNat / 256 = 0) : decode w = decodeOpc (fieldOpc w) :=
  if_pos ((fieldRsv_eq_zero_iff w).mpr h)

theorem decode_unknownOpcode {w : Word} (hrsv : w.toNat / 256 = 0) (hopc : 7 < w.toNat % 256) :
    decode w = .reject .unknownOpcode := by
  rw [decode_of_reserved_zero hrsv]
  exact decodeOpc_unknown (by rwa [fieldOpc_toNat])

/-- The decoder reads a command exactly in the word whose bits 31:8 are 0 and whose bits 7:0 are its opcode (R94). -/
theorem decode_eq_ok_iff (w : Word) (i : Instr) :
    decode w = .ok i ↔ w.toNat / 256 = 0 ∧ w.toNat % 256 = (opcodeOf i).toNat := by
  by_cases hrsv : w.toNat / 256 = 0
  · rw [decode_of_reserved_zero hrsv, decodeOpc_eq_ok_iff, BitVec.toNat_eq, fieldOpc_toNat]
    exact (and_iff_right hrsv).symm
  · simp [decode_reservedBits hrsv, hrsv]

theorem decode_encode (i : Instr) : decode (encode i) = .ok i := by cases i <;> rfl

/-- A word that is none of the eight is rejected (R93): its bits 31:8 are not 0, or its bits 7:0 are 0x08 or more. -/
theorem decode_rejects {w : Word} (h : w.toNat / 256 ≠ 0 ∨ 0x08 ≤ w.toNat % 256) : ∃ r, decode w = .reject r := by
  by_cases hrsv : w.toNat / 256 = 0
  · exact ⟨_, decode_unknownOpcode hrsv (h.resolve_left (not_not_intro hrsv))⟩
  · exact ⟨_, decode_reservedBits hrsv⟩

end Sys2Proof

namespace Sys2Proof.Machine

/-! ## The step on a rejected word, and the step of a `wait` -/

theorem engineStep_reject {s : State} {r : DecodeReject} (h : decode s.cl = .reject r) :
    engineStep s = .next (s.raiseCmdError .illegalCmd) := by simp [engineStep, h]

/-- A `wait` reads STATUS, and is put back in front of the program while BUSY = 1 (30_encoding.md R97). -/
theorem hostStep_wait {s : State} {rest : List HostOp} (h : s.program = .wait :: rest) :
    hostStep s = { s with
      received := some s.statusWord :: s.received
      program := if s.busy then .wait :: rest else rest
      polls := s.polls - 1 } := by
  rw [hostStep_cons h]
  cases hbusy : s.busy <;> simp [hostOp, State.prepend, State.statusWord, hbusy]

/-! ## The statements -/

/-- Settles O7: each clause is one case of the decoder, and a rejected word raises ILLEGAL_CMD. -/
theorem decodeFollowsTheCaseTable : Obligations.DecodeFollowsTheCaseTable := by
  unfold Obligations.DecodeFollowsTheCaseTable
  intro w
  refine ⟨decode_reservedBits, decode_unknownOpcode, decode_eq_ok_iff w, ?_⟩
  rintro s r rfl hr
  exact engineStep_reject hr

/-- Settles O8: on its turn the step is the engine's, and the decoder rejects the latched word. -/
theorem illegalWordRaisesIllegalCmd : Obligations.IllegalWordRaisesIllegalCmd := by
  unfold Obligations.IllegalWordRaisesIllegalCmd
  intro s hturn hword
  obtain ⟨r, hr⟩ := decode_rejects hword
  rw [step_engine hturn]
  exact engineStep_reject hr

/-- Settles O5: the eight words are the encodings of the eight commands. -/
theorem opcodeMapWordsDecode : Obligations.OpcodeMapWordsDecode := by
  unfold Obligations.OpcodeMapWordsDecode
  exact ⟨decode_encode .nop, decode_encode .prng, decode_encode .noise, decode_encode .sine, decode_encode .eval,
    decode_encode .fill, decode_encode .dither, decode_encode .render, rfl, rfl, rfl, rfl, rfl, rfl, rfl, rfl⟩

/-- Settles O52: the rows of R97's table are equations of the expansion, and the bit a `wait` looks at is BUSY. -/
theorem pseudoInstructionsExpand : Obligations.PseudoInstructionsExpand := by
  unfold Obligations.PseudoInstructionsExpand
  refine ⟨fun _ => rfl, fun _ => rfl, fun _ _ _ => rfl, fun _ => rfl, fun _ _ => rfl, rfl, fun _ _ _ _ _ => rfl,
    fun s rest hp => ?_⟩
  have hread : s.busRead 0x000004#24 4 = (s, some s.statusWord) := s.busRead_status
  rw [hostStep_wait hp, hread, State.readReg_status, State.statusWord_bit0]
  exact ⟨rfl, rfl⟩

end Sys2Proof.Machine
end

section
/-! PROOFS. The statements of 40_primitives.md about the leaf functions and the commands NOP, PRNG, NOISE and SINE. -/

namespace Sys2Proof

/-- The decoder inverts the encoder, and reads a command in no other word (30_encoding.md R92). -/
theorem decode_eq_ok_iff_encode (w : Word) (i : Instr) : decode w = .ok i ↔ w = encode i := by
  constructor
  · intro h
    obtain ⟨hrsv, hopc⟩ := (decode_eq_ok_iff w i).mp h
    obtain ⟨hrsv', hopc'⟩ := (decode_eq_ok_iff (encode i) i).mp (decode_encode i)
    apply BitVec.eq_of_toNat_eq
    omega
  · rintro rfl
    exact decode_encode i

end Sys2Proof

namespace Sys2Proof.Machine

/-! ## Words as numbers (00_scope.md R9) -/

theorem xor_shiftLeft_toNat (w : Word) (k : Nat) :
    (w ^^^ (w <<< k)).toNat = w.toNat ^^^ (w.toNat * 2 ^ k % 2 ^ 32) := by
  rw [BitVec.toNat_xor, BitVec.toNat_shiftLeft, Nat.shiftLeft_eq]

theorem xor_shiftRight_toNat (w : Word) (k : Nat) : (w ^^^ (w >>> k)).toNat = w.toNat ^^^ (w.toNat / 2 ^ k) := by
  rw [BitVec.toNat_xor, BitVec.toNat_ushiftRight, Nat.shiftRight_eq_div_pow]

theorem mul_add_mul_add_toNat (x a y b c : Word) :
    (x * a + y * b + c).toNat = (x.toNat * a.toNat + y.toNat * b.toNat + c.toNat) % 2 ^ 32 := by
  simp only [BitVec.toNat_add, BitVec.toNat_mul, Nat.mod_add_mod, Nat.add_mod_mod]

theorem lowByte_toNat (w : Word) : ((w &&& 0xFF#32).setWidth 8).toNat = w.toNat % 256 := by
  have hmask : w.toNat &&& (0xFF#32).toNat = w.toNat % 256 := Nat.and_two_pow_sub_one_eq_mod w.toNat 8
  rw [BitVec.toNat_setWidth, BitVec.toNat_and, hmask, Nat.mod_mod]

/-! ## The table of SINE -/

theorem sineApprox_eq_getD (t : List Int) (a : BitVec 8) : sineApprox t a = t.getD (a.toNat % 64) 0 := by
  rw [sineApprox, sineEntry, BitVec.extractLsb'_toNat, Nat.shiftRight_zero]

/-- Of ARG0 only bits 5:0 select the entry (40_primitives.md R129). -/
theorem sineApprox_angleOperand (s : State) (t : List Int) :
    sineApprox t s.angleOperand = t.getD (s.arg0.toNat % 64) 0 := by
  have hindex : s.arg0.toNat % 2 ^ 8 % 64 = s.arg0.toNat % 64 := by omega
  rw [sineApprox_eq_getD, State.angleOperand, BitVec.extractLsb'_toNat, Nat.shiftRight_zero, hindex]

/-- An entry of a legal table fits in a word, so its sign extension reads back as the entry. -/
theorem sext32_sineApprox_toInt {t : List Int} (h : sineTableOk t = true) (a : BitVec 8) :
    (sext32 (sineApprox t a)).toInt = sineApprox t a := by
  obtain ⟨hlo, hhi⟩ := sineEntry_bounds h (a.extractLsb' 0 6)
  rw [sext32, word, sineApprox]
  exact BitVec.toInt_ofInt_eq_self (by decide) (by omega) (by omega)

/-- Angles that end in 62 or 63 give the two last entries of the default table, which are 0 (R128). -/
theorem sineRows_corner {k : Nat} (h : k % 256 ∈ [62, 63, 126, 127, 190, 191, 254, 255]) :
    Claims.sineRows.getD (k % 64) 0 = 0 := by
  simp only [List.mem_cons, List.not_mem_nil, or_false] at h
  obtain hk | hk : k % 64 = 62 ∨ k % 64 = 63 := by omega
  · rw [hk]; rfl
  · rw [hk]; rfl

/-! ## What the four commands answer -/

theorem exec_nop (s : State) : exec .nop s = .next { s with busy := false } := rfl

theorem exec_prng (s : State) : exec .prng s =
    .next { s with arg0 := xorshift32 s.arg0, result := xorshift32 s.arg0, busy := false } := rfl

theorem exec_noise (s : State) : exec .noise s =
    .next { s with result := (hashNoise s.arg0 s.arg1 s.arg2).setWidth 32, busy := false } := rfl

theorem exec_sine (s : State) : exec .sine s =
    .next { s with result := sext32 (sineApprox s.block.sineTable s.angleOperand), busy := false } := rfl

theorem exec_sine_result {s t : State} (h : exec .sine s = .next t) :
    t.result = sext32 (sineApprox s.block.sineTable s.angleOperand) := by
  obtain rfl := Host.Outcome.next.inj ((exec_sine s).symm.trans h)
  rfl

theorem engineStep_of_decode {s : State} {i : Instr} (h : decode s.cl = .ok i) : engineStep s = exec i s := by
  simp [engineStep, h]

theorem State.statusWord_of_clear {s : State} (hbusy : s.busy = false) (herr : s.err = false)
    (hcode : s.errCode = 0#4) : s.statusWord = 0#32 := by
  rw [State.statusWord, hbusy, herr, hcode]; rfl

/-- `n + 1` PRNG commands in closed form: each one reads the ARG0 that the one before it wrote (R122). -/
theorem prngTimes_succ (n : Nat) (s : State) : Claims.prngTimes (n + 1) s =
    .next { s with arg0 := xorshift32^[n + 1] s.arg0, result := xorshift32^[n + 1] s.arg0, busy := false } := by
  induction n generalizing s with
  | zero => rfl
  | succ n ih => exact ih { s with arg0 := xorshift32 s.arg0, result := xorshift32 s.arg0, busy := false }

/-! ## The statements -/

/-- Settles O12, by reading each of the three steps on numbers. -/
theorem xorshiftIsTheThreeSteps : Obligations.XorshiftIsTheThreeSteps := by
  unfold Obligations.XorshiftIsTheThreeSteps
  intro s
  simp only [xorshift32, xor_shiftLeft_toNat, xor_shiftRight_toNat]

/-- Settles O14: one command by its equation, `n` of them by the closed form. -/
theorem prngAdvancesTheState : Obligations.PrngAdvancesTheState := by
  unfold Obligations.PrngAdvancesTheState
  refine ⟨exec_prng, rfl, by decide, by decide, by decide, by decide, fun n s => ?_⟩
  cases n with
  | zero => exact ⟨s, rfl, rfl, fun h => absurd h (Nat.lt_irrefl 0)⟩
  | succ n => exact ⟨_, prngTimes_succ n s, rfl, fun _ => rfl⟩

/-- Settles O15: sums and products of words are those of numbers modulo 2^32, and the mask keeps the low byte. -/
theorem hashNoiseIsTheFormula : Obligations.HashNoiseIsTheFormula := by
  unfold Obligations.HashNoiseIsTheFormula
  intro x y seed
  have hsum : (x * 374761393#32 + y * 668265263#32 + seed).toNat =
      (x.toNat * 374761393 + y.toNat * 668265263 + seed.toNat) % 2 ^ 32 := mul_add_mul_add_toNat x _ y _ seed
  have hmul (w : Word) : (w * 1274126177#32).toNat = w.toNat * 1274126177 % 2 ^ 32 := BitVec.toNat_mul w _
  simp only [hashNoise, lowByte_toNat, xor_shiftRight_toNat, hmul, hsum]

/-- Settles O11: the command's equation, the decoder's word for NOP, and STATUS with no bit set. -/
theorem nopOnlyClearsBusy : Obligations.NopOnlyClearsBusy := by
  unfold Obligations.NopOnlyClearsBusy
  refine ⟨exec_nop, fun w => decode_eq_ok_iff_encode w .nop, rfl, ?_, fun s t hresult herr hcode h => ?_⟩
  · rw [State.reset.busWrite_reg .cmd 0#32 rfl]
    exact engineStep_of_decode (decode_encode .nop)
  · obtain rfl := Host.Outcome.next.inj ((exec_nop s).symm.trans h)
    exact ⟨hresult, State.statusWord_of_clear rfl herr hcode⟩

/-- Settles O16: the command's equation; a byte extended by zeros stays below 256. -/
theorem noiseWritesTheZeroExtendedNoise : Obligations.NoiseWritesTheZeroExtendedNoise := by
  unfold Obligations.NoiseWritesTheZeroExtendedNoise
  refine ⟨exec_noise, fun s t h => ?_, rfl, by decide, by decide, by decide, by decide, by decide, by decide,
    by decide⟩
  obtain rfl := Host.Outcome.next.inj ((exec_noise s).symm.trans h)
  rw [BitVec.toNat_setWidth_of_le (by decide)]
  exact (hashNoise s.arg0 s.arg1 s.arg2).isLt

/-- Settles O17: the low 6 bits are the angle modulo 64; the default table is compared entry by entry. -/
theorem sineTableIsTheSpecsTable : Obligations.SineTableIsTheSpecsTable := by
  unfold Obligations.SineTableIsTheSpecsTable
  exact ⟨sineApprox_eq_getD, rfl, rfl, rfl, rfl⟩

/-- Settles O18: RESULT is the sign-extended entry that ARG0[5:0] selects; the examples read it off R128's rows. -/
theorem sineWritesTheSignExtendedEntry : Obligations.SineWritesTheSignExtendedEntry := by
  unfold Obligations.SineWritesTheSignExtendedEntry
  refine ⟨fun s => ?_, rfl, fun s t hok h => ?_, fun s t htable h => ?_⟩
  · rw [exec_sine, sineApprox_angleOperand]; rfl
  · rw [exec_sine_result h, sext32_sineApprox_toInt hok, sineApprox_angleOperand]
  · rw [exec_sine_result h, sineApprox_angleOperand, htable]
    refine ⟨fun ha => ?_, fun ha => ?_, fun ha => ?_, fun ha => ?_, fun hcorner => ?_⟩
    · rw [ha]; rfl
    · rw [ha]; rfl
    · rw [ha]; rfl
    · rw [ha]; rfl
    · rw [sineRows_corner hcorner]; rfl

end Sys2Proof.Machine
end

section
/-! PROOFS. The statements of 41_pattern.md about the conversions, the selection of the kind, the overlay and the
commands EVAL and FILL. -/

namespace Sys2Proof.Machine

/-! ## The order of finite values (00_scope.md R10) -/

/-- The units of a pattern magnitude rise with it. -/
theorem magUnits_strictMono : StrictMono magUnits := by
  refine strictMono_nat_of_lt_succ fun m => ?_
  by_cases hnext : (m + 1) / 2 ^ 23 = m / 2 ^ 23
  · have hrem : (m + 1) % 2 ^ 23 = m % 2 ^ 23 + 1 := by omega
    simp only [magUnits, hnext, hrem]
    split
    · exact Nat.lt_succ_self m
    · exact Nat.mul_lt_mul_of_pos_right (by omega) (by positivity)
  · have hexp : (m + 1) / 2 ^ 23 = m / 2 ^ 23 + 1 := by omega
    have hrem : (m + 1) % 2 ^ 23 = 0 := by omega
    simp only [magUnits, hexp, hrem]
    split
    · next hm =>
      rw [if_neg (by omega), hm]
      omega
    · next hm =>
      obtain ⟨e, he⟩ := Nat.exists_eq_succ_of_ne_zero hm
      rw [he, if_neg (by omega)]
      simp only [Nat.succ_eq_add_one, Nat.add_sub_cancel, pow_succ 2 e]
      have hpos : 0 < 2 ^ e := by positivity
      nlinarith [Nat.mod_lt m (show 0 < 2 ^ 23 by decide)]

/-- On the number line patterns lie as their values do: of each sign in the order of the magnitudes, both zeros at 0. -/
theorem fOrder_lt_iff (a b : F32) : fOrder a < fOrder b ↔ fUnits a < fUnits b := by
  have hab : fAbsUnits a < fAbsUnits b ↔ fMag a < fMag b := magUnits_strictMono.lt_iff_lt
  have hba : fAbsUnits b < fAbsUnits a ↔ fMag b < fMag a := magUnits_strictMono.lt_iff_lt
  have ha : fAbsUnits a = 0 ↔ fMag a = 0 := magUnits_strictMono.injective.eq_iff (b := 0)
  have hb : fAbsUnits b = 0 ↔ fMag b = 0 := magUnits_strictMono.injective.eq_iff (b := 0)
  unfold fOrder fUnits
  split_ifs <;> omega

theorem fIsNaN_of_finite {a : F32} (h : fIsFinite a = true) : fIsNaN a = false := by
  simp only [fIsFinite, fIsNaN, decide_eq_true_eq, decide_eq_false_iff_not] at *
  omega

theorem flt_iff_fUnits {a b : F32} (ha : fIsFinite a = true) (hb : fIsFinite b = true) :
    flt a b = true ↔ fUnits a < fUnits b := by
  simp [flt, fIsNaN_of_finite ha, fIsNaN_of_finite hb, fOrder_lt_iff]

theorem fle_iff_fUnits {a b : F32} (ha : fIsFinite a = true) (hb : fIsFinite b = true) :
    fle a b = true ↔ fUnits a ≤ fUnits b := by
  simp only [fle, fIsNaN_of_finite ha, fIsNaN_of_finite hb, Bool.not_false, Bool.true_and, decide_eq_true_eq]
  rw [← not_lt, fOrder_lt_iff, not_lt]

/-! ## The conversions of R161 -/

theorem fUnits_fMinusOne : fUnits fMinusOne = -(2 ^ 149) := by decide +kernel
theorem fUnits_fTwoPow31 : fUnits fTwoPow31 = 2 ^ 180 := by decide +kernel
theorem fUnits_fMinusTwoPow31 : fUnits fMinusTwoPow31 = -(2 ^ 180) := by decide +kernel

/-- Where `trunc_angle` truncates: finite, above −1 and below 2^31 (R161). -/
abbrev AngleInRange (v : F32) : Prop := fIsFinite v = true ∧ -(2 ^ 149) < fUnits v ∧ fUnits v < 2 ^ 180

/-- Where `trunc_s32` truncates: finite, at least −2^31 and below 2^31 (R161). -/
abbrev S32InRange (v : F32) : Prop := fIsFinite v = true ∧ -(2 ^ 180) ≤ fUnits v ∧ fUnits v < 2 ^ 180

theorem truncAngle_guard_iff (v : F32) :
    (fIsFinite v && flt fMinusOne v && flt v fTwoPow31) = true ↔ AngleInRange v := by
  rw [Bool.and_eq_true, Bool.and_eq_true, and_assoc]
  refine and_congr_right fun hfin => ?_
  rw [flt_iff_fUnits rfl hfin, flt_iff_fUnits hfin rfl, fUnits_fMinusOne, fUnits_fTwoPow31]

theorem truncS32_guard_iff (v : F32) :
    (fIsFinite v && fle fMinusTwoPow31 v && flt v fTwoPow31) = true ↔ S32InRange v := by
  rw [Bool.and_eq_true, Bool.and_eq_true, and_assoc]
  refine and_congr_right fun hfin => ?_
  rw [fle_iff_fUnits rfl hfin, flt_iff_fUnits hfin rfl, fUnits_fMinusTwoPow31, fUnits_fTwoPow31]

theorem truncAngle_of_range {v : F32} (h : AngleInRange v) (k : Nat) : truncAngle v k = BitVec.ofInt 6 (fTrunc v) :=
  if_pos ((truncAngle_guard_iff v).mpr h)

theorem truncAngle_out_of_range {v : F32} (h : ¬AngleInRange v) (k : Nat) : truncAngle v k = angleDraw k :=
  if_neg (mt (truncAngle_guard_iff v).mp h)

theorem truncS32_of_range {v : F32} (h : S32InRange v) (k : Nat) : truncS32 v k = fTrunc v :=
  if_pos ((truncS32_guard_iff v).mpr h)

theorem truncS32_out_of_range {v : F32} (h : ¬S32InRange v) (k : Nat) : truncS32 v k = s32Draw k :=
  if_neg (mt (truncS32_guard_iff v).mp h)

theorem fTrunc_eq (v : F32) : fTrunc v = Int.tdiv (fUnits v) (2 ^ 149) := by
  rw [fTrunc, unitOne]; norm_cast

/-! ## What EVAL and FILL answer -/

theorem State.evalInCanvas_iff (s : State) :
    s.evalInCanvas = true ↔ s.arg0.toNat < s.width ∧ s.arg1.toNat < s.height := by
  rw [State.evalInCanvas, Bool.and_eq_true, decide_eq_true_eq, decide_eq_true_eq]
  exact Iff.rfl

theorem exec_eval_inside {s : State} (hx : s.arg0.toNat < s.width) (hy : s.arg1.toNat < s.height) :
    exec .eval s = .next { s with
      result := (evaluate s.patternParams s.draws s.arg0.toNat s.arg1.toNat).setWidth 32
      draws := s.draws + slotsPerPixel
      busy := false } :=
  if_pos (s.evalInCanvas_iff.mpr ⟨hx, hy⟩)

theorem exec_eval_outside {s : State} (h : s.width ≤ s.arg0.toNat ∨ s.height ≤ s.arg1.toNat) :
    exec .eval s = .next { s with err := true, errCode := 0x2#4, busy := false } :=
  if_neg (mt s.evalInCanvas_iff.mp (by omega))

@[simp] theorem State.finish_canvasBytes (s : State) : s.finish.canvasBytes = s.canvasBytes := rfl

theorem exec_fill (s : State) : exec .fill s = .next s.fillCanvas.finish := rfl

/-! ## The overlay, the inversion and the byte, where no draw enters them -/

theorem quantise_of_finite {v : F32} (h : fIsFinite (fmul v f255) = true) (k : Nat) :
    quantise v k = intByte (fFloor (fmul v f255)) := if_pos h

/-- The overlay reads no draw where both scaled coordinates are in range. -/
theorem overlay_of_range {p : PatternParams} {x y : Nat} (hx : S32InRange (fmul (cvtF32 x) p.nscale))
    (hy : S32InRange (fmul (cvtF32 y) p.nscale)) (d d' : Nat) (v : F32) : overlay p d x y v = overlay p d' x y v := by
  simp only [overlay, overlayNoise, truncS32_of_range hx, truncS32_of_range hy]

theorem overlay_on {p : PatternParams} (h : flt fZero p.nscale = true) (d x y : Nat) (v : F32) :
    overlay p d x y v = blend p.block v (overlayNoise p d x y) := if_pos h

theorem overlay_off {p : PatternParams} (h : flt fZero p.nscale = false) (d x y : Nat) (v : F32) :
    overlay p d x y v = v := if_neg (Bool.eq_false_iff.mp h)

theorem invertUnit_false (v : F32) : invertUnit false v = v := rfl

theorem flt_fZero_fZero : flt fZero fZero = false := by decide

/-- NSCALE > 0 as an IEEE comparison, read off the pattern (R174). -/
theorem flt_zero_iff (ns : F32) :
    flt fZero ns = true ↔ (fIsNaN ns = false ∧ fSign ns = false ∧ fIsZero ns = false) := by
  have hnan : fIsNaN fZero = false := rfl
  have hzero : fOrder fZero = 0 := rfl
  simp only [flt, hnan, hzero, Bool.not_false, Bool.true_and, Bool.and_eq_true, Bool.not_eq_true', decide_eq_true_eq]
  refine and_congr_right fun _ => ?_
  cases hs : fSign ns <;> simp [fOrder, fIsZero, hs, Nat.pos_iff_ne_zero]

/-! ## Kind 0 -/

theorem patternKind_of_gt {kind : Word} (h : 9 < kind.toNat) : patternKind kind = .horizontal := by
  unfold patternKind
  split
  case h_10 => rfl
  all_goals omega

theorem evaluate_horizontal {p : PatternParams} (h : patternKind p.kind = .horizontal) (d x y : Nat) :
    evaluate p d x y =
      quantise (invertUnit p.invert (clampUnit (overlay p d x y (normalise x p.width)))) (d + 4) := by
  simp only [evaluate, rawValue, h]

/-- An evaluation reads KIND only through the kind it selects (R163). -/
theorem evaluate_kind_congr {p : PatternParams} {k : Word} (h : patternKind p.kind = patternKind k) (d x y : Nat) :
    evaluate p d x y = evaluate { p with kind := k } d x y := by
  simp only [evaluate, rawValue, overlay, overlayNoise, h]

/-- `b` is the byte of kind 0 at column `x` of a canvas of width `w`, overlay and inversion off; no draw is in it. -/
abbrev IsGradientByte (w x : Nat) (b : Byte) : Prop :=
  fIsFinite (fmul (clampUnit (normalise x w)) f255) = true ∧
    intByte (fFloor (fmul (clampUnit (normalise x w)) f255)) = b

theorem evaluate_gradient {p : PatternParams} {w x : Nat} {b : Byte} (hkind : patternKind p.kind = .horizontal)
    (hns : flt fZero p.nscale = false) (hinv : p.invert = false) (hw : p.width = w) (hb : IsGradientByte w x b)
    (d y : Nat) : evaluate p d x y = b := by
  obtain ⟨hfin, hbyte⟩ := hb
  rw [evaluate_horizontal hkind, overlay_off hns, hinv, invertUnit_false, hw, quantise_of_finite hfin, hbyte]

theorem State.evaluate_gradient {s : State} {w x : Nat} {b : Byte} (hkind : s.kind = 0#32) (hns : s.nscale = 0#32)
    (hinv : s.invert = false) (hw : s.width = w) (hb : IsGradientByte w x b) (d y : Nat) :
    evaluate s.patternParams d x y = b :=
  have hoff : flt fZero s.nscale = false := (congrArg (flt fZero) hns).trans flt_fZero_fZero
  Machine.evaluate_gradient (congrArg patternKind hkind) hoff hinv hw hb d y

/-- The four gradient bytes of a canvas of width 4 (R181's example). -/
def gradientRow : List Byte := [0#8, 63#8, 127#8, 191#8]

theorem gradientRow_isGradientByte : ∀ x < 4, IsGradientByte 4 x (gradientRow.getD x 0#8) := by decide +kernel

theorem State.fillBytes_gradient {s : State} (hw : s.width = 4) (hh : s.height = 2) (hkind : s.kind = 0#32)
    (hns : s.nscale = 0#32) (hinv : s.invert = false) (d : Nat) :
    fillBytes s.patternParams d = gradientRow ++ gradientRow := by
  have hcells : s.patternParams.width * s.patternParams.height = 8 := by simp [State.patternParams, hw, hh]
  have hpixel (i : Nat) : evaluate s.patternParams (d + slotsPerPixel * i) (i % s.width) (i / s.width) =
      gradientRow.getD (i % 4) 0#8 := by
    rw [hw]
    exact State.evaluate_gradient hkind hns hinv hw (gradientRow_isGradientByte (i % 4) (Nat.mod_lt i (by decide))) _ _
  calc fillBytes s.patternParams d
    _ = (List.range 8).map fun i => gradientRow.getD (i % 4) 0#8 := by
      rw [fillBytes, hcells]
      exact List.map_congr_left fun i _ => hpixel i
    _ = gradientRow ++ gradientRow := rfl

/-- Kind 0 reads no draw: both scaled coordinates are in range and the value to quantise is a number. -/
abbrev DrawFreePixel (p : PatternParams) (x y : Nat) : Prop :=
  S32InRange (fmul (cvtF32 x) p.nscale) ∧ S32InRange (fmul (cvtF32 y) p.nscale) ∧
    fIsFinite (fmul (invertUnit p.invert (clampUnit (overlay p 0 x y (normalise x p.width)))) f255) = true

theorem evaluate_of_drawFree {p : PatternParams} {x y : Nat} (hkind : patternKind p.kind = .horizontal)
    (h : DrawFreePixel p x y) (d : Nat) : evaluate p d x y = evaluate p 0 x y := by
  obtain ⟨hx, hy, hfin⟩ := h
  rw [evaluate_horizontal hkind, evaluate_horizontal hkind, overlay_of_range hx hy d 0,
    quantise_of_finite hfin, quantise_of_finite hfin]

/-- The parameters of R174's examples. -/
def overlayExample : PatternParams := ⟨42#32, 0#32, 0x3F800000#32, 0x3D4CCCCD#32, false, 128, 64, .default⟩

/-- R174's examples: a pixel and its intensity. -/
def overlayExamples : List ((Nat × Nat) × Byte) :=
  [((0, 0), 23#8), ((19, 0), 49#8), ((20, 0), 42#8), ((64, 32), 163#8), ((127, 63), 215#8)]

theorem overlayExamples_slot_zero : ∀ q ∈ overlayExamples,
    DrawFreePixel overlayExample q.1.1 q.1.2 ∧ evaluate overlayExample 0 q.1.1 q.1.2 = q.2 := by decide +kernel

theorem overlayExamples_value (d : Nat) : ∀ q ∈ overlayExamples, evaluate overlayExample d q.1.1 q.1.2 = q.2 := by
  intro q hq
  obtain ⟨hfree, hvalue⟩ := overlayExamples_slot_zero q hq
  rw [evaluate_of_drawFree rfl hfree, hvalue]

/-! ## The statements -/

/-- Settles O23: each conversion's guard is the range of R161, the comparisons being those of the units. -/
theorem floatConversionsTruncateOrDraw : Obligations.FloatConversionsTruncateOrDraw := by
  unfold Obligations.FloatConversionsTruncateOrDraw
  intro v k
  refine ⟨fun h => ?_, fun h => ?_, fun h => ?_, fun h => ?_⟩
  · rw [truncAngle_of_range h, BitVec.toNat_ofInt, fTrunc_eq]
    exact Int.toNat_of_nonneg (Int.emod_nonneg _ (by decide))
  · rw [truncAngle_out_of_range h, angleDraw, BitVec.extractLsb'_toNat, Nat.shiftRight_zero]
  · rw [truncS32_of_range h, fTrunc_eq]
  · rw [truncS32_out_of_range h, s32Draw]

/-- Settles O27: R163's selection sends every KIND above 9 to kind 0, and EVAL on the canvas leaves ERR and ERRCODE. -/
theorem outOfRangeKindActsAsKindZero : Obligations.OutOfRangeKindActsAsKindZero := by
  unfold Obligations.OutOfRangeKindActsAsKindZero
  refine ⟨fun p d x y hkind => evaluate_kind_congr (patternKind_of_gt hkind) d x y, rfl,
    fun s t _ hx hy h => ?_, fun k hk d => ?_⟩
  · obtain rfl := Host.Outcome.next.inj ((exec_eval_inside hx hy).symm.trans h)
    exact ⟨rfl, rfl⟩
  · have hgt : ∀ k ∈ [10#32, 255#32, 0x80000000#32, 0xFFFFFFFF#32], 9 < k.toNat := by simp
    have hb : IsGradientByte 128 100 199#8 := by decide +kernel
    exact evaluate_gradient (patternKind_of_gt (hgt k hk)) flt_fZero_fZero (by rfl) (by rfl) hb d 10

/-- Settles O31: the two branches of the overlay, its test read off the pattern; the examples are draw-free pixels. -/
theorem overlayIsAppliedExactlyWhenScalePositive : Obligations.OverlayIsAppliedExactlyWhenScalePositive := by
  unfold Obligations.OverlayIsAppliedExactlyWhenScalePositive
  refine ⟨fun p d x y v h => overlay_on h d x y v, rfl, rfl,
    fun p d x y v h => overlay_off h d x y v, flt_zero_iff,
    by decide +kernel, by decide +kernel, by decide +kernel, fun d => ?_⟩
  have hvalue := overlayExamples_value d
  simp only [overlayExamples, List.forall_mem_cons] at hvalue
  obtain ⟨h0, h19, h20, h64, h127, -⟩ := hvalue
  exact ⟨h0, h19, h20, h64, h127⟩

/-- Settles O35: reading back the bytes FILL wrote; on the 4 × 2 canvas each is the gradient byte of its column. -/
theorem fillWritesEveryIntensity : Obligations.FillWritesEveryIntensity := by
  unfold Obligations.FillWritesEveryIntensity
  refine ⟨fun s => ⟨s.fillCanvas.finish, exec_fill s, rfl, fun i hi => ?_, fun i hi => ?_⟩, rfl,
    fun s hw hh hkind hns hinv => ⟨s.fillCanvas.finish, exec_fill s, ?_⟩⟩
  · rw [State.finish_canvasByte, State.fillCanvas_canvasByte]
    exact fillBytes_getD s.patternParams s.draws i _ hi
  · rw [State.finish_canvasByte, State.fillCanvas_canvasByte]
    exact List.getD_eq_default _ _ (by rw [fillBytes_length]; exact hi)
  · rw [State.finish_canvasBytes, State.fillCanvas_canvasBytes]
    exact State.fillBytes_gradient hw hh hkind hns hinv s.draws

/-- Settles O34: the two answers of EVAL; in the examples ARG0 is the last column, and the first past it. -/
theorem evalWritesTheIntensityOrRaisesBadCoord : Obligations.EvalWritesTheIntensityOrRaisesBadCoord := by
  unfold Obligations.EvalWritesTheIntensityOrRaisesBadCoord
  refine ⟨fun s hx hy => ⟨_, exec_eval_inside hx hy, rfl⟩, fun s h => exec_eval_outside h, rfl,
    fun s hx hy hkind hns hinv hw hh => ?_, fun s hx hw => exec_eval_outside (.inl ?_)⟩
  · refine ⟨_, exec_eval_inside (by rw [hx, hw]; decide) (by rw [hy, hh]; decide), ?_⟩
    have hb : IsGradientByte 128 127 253#8 := by decide +kernel
    simp only [hx]
    exact congrArg (BitVec.setWidth 32) (State.evaluate_gradient hkind hns hinv hw hb s.draws s.arg1.toNat)
  · rw [hx, hw]; decide

end Sys2Proof.Machine
end

section
/-! PROOFS. The statements of 42_dither.md about the threshold and its error, the ditherer as the nested loops of R224,
and the commands DITHER and RENDER. -/

namespace Sys2Proof.Machine

/-! ## One byte: the threshold, the error and a share (42_dither.md R220-R222) -/

theorem byteInt_ditherNew (b : Byte) : byteInt (ditherNew b) = if byteInt b > 127 then 255 else 0 := by
  have hthreshold : 127 < b.toNat ↔ byteInt b > 127 := by unfold byteInt; omega
  simp only [ditherNew, hthreshold]
  split <;> rfl

theorem byteInt_nonneg (b : Byte) : 0 ≤ byteInt b := Int.natCast_nonneg _

theorem byteInt_le (b : Byte) : byteInt b ≤ 255 := by unfold byteInt; omega

theorem intByte_byteInt (b : Byte) : intByte (byteInt b) = b := by
  simp [intByte, byteInt]

theorem byteInt_intByte {n : Int} (hlo : 0 ≤ n) (hhi : n ≤ 255) : byteInt (intByte n) = n := by
  have hsmall : n % 256 = n := Int.emod_eq_of_lt hlo (by omega)
  simp [byteInt, intByte, hsmall, hlo]

theorem clamp_eq_max_min {lo hi : Int} (h : lo ≤ hi) (n : Int) : clamp n lo hi = max lo (min hi n) := by
  unfold clamp
  split_ifs <;> omega

theorem byteInt_ditherShare (b : Byte) (err wt : Int) :
    byteInt (ditherShare b err wt) = max 0 (min 255 (byteInt b + Int.tdiv (err * wt) 16)) := by
  rw [ditherShare, clamp_eq_max_min (by decide)]
  exact byteInt_intByte (by omega) (by omega)

/-- A neighbour's share of the error 0 changes nothing. -/
theorem ditherShare_zero (b : Byte) (wt : Int) : ditherShare b 0 wt = b := by
  have hlo := byteInt_nonneg b
  have hhi := byteInt_le b
  rw [ditherShare, Int.zero_mul, tdiv, Int.zero_tdiv, Int.add_zero, clamp_eq_max_min (by decide),
    min_eq_right hhi, max_eq_right hlo, intByte_byteInt]

theorem ditherErr_of_fixed {b : Byte} (h : ditherNew b = b) : ditherErr b = 0 := by
  rw [ditherErr, h, Int.sub_self]

/-! ## The neighbours of a pixel (42_dither.md R222, R223) -/

/-- `j` is the index of the neighbour of pixel (x, y) that the entry `n` = (dx, dy, weight) names, inside the canvas. -/
structure IsNeighbour (w h x y : Nat) (n : Int × Int × Int) (j : Nat) : Prop where
  left : 0 ≤ (x : Int) + n.1
  right : (x : Int) + n.1 < w
  above : 0 ≤ n.2.1
  below : (y : Int) + n.2.1 < h
  index : (j : Int) = ((y : Int) + n.2.1) * w + (x + n.1)

theorem ditherWeights_above : ∀ n ∈ ditherWeights, 0 ≤ n.2.1 := by decide

theorem ditherWeights_distinct : ditherWeights.Pairwise fun m n => ¬(m.1 = n.1 ∧ m.2.1 = n.2.1) := by decide

/-- The right neighbour, and the three of the next row. -/
theorem ditherWeights_offset : ∀ n ∈ ditherWeights, (n.1 = 1 ∧ n.2.1 = 0) ∨ (-1 ≤ n.1 ∧ n.2.1 = 1) := by
  decide

section Neighbours
variable {w h x y j : Nat} {n : Int × Int × Int}

theorem IsNeighbour.lt (hn : IsNeighbour w h x y n j) : j < w * h := by
  obtain ⟨hleft, hright, habove, hbelow, hindex⟩ := hn
  have hrows : ((y : Int) + n.2.1 + 1) * w ≤ h * w := Int.mul_le_mul_of_nonneg_right hbelow (by omega)
  have hnext : ((y : Int) + n.2.1 + 1) * w = (y + n.2.1) * w + w := by ring
  have hlt : (j : Int) < ((w * h : Nat) : Int) := by push_cast; linarith
  exact_mod_cast hlt

/-- An index has one column and one row, so it is reached by one pair (dx, dy). -/
theorem IsNeighbour.offset_unique {m : Int × Int × Int} (hn : IsNeighbour w h x y n j)
    (hm : IsNeighbour w h x y m j) : n.1 = m.1 ∧ n.2.1 = m.2.1 := by
  obtain ⟨hleft, hright, -, -, hindex⟩ := hn
  obtain ⟨hleft', hright', -, -, hindex'⟩ := hm
  have hsame := hindex.symm.trans hindex'
  have hcol : (x : Int) + n.1 = x + m.1 := by
    have hmod := congrArg (· % (w : Int)) hsame
    simpa only [Int.mul_add_emod_self_right, Int.emod_eq_of_lt hleft hright, Int.emod_eq_of_lt hleft' hright']
      using hmod
  have hrow : (y : Int) + n.2.1 = y + m.2.1 := Int.eq_of_mul_eq_mul_right (a := w) (by omega) (by linarith)
  exact ⟨Int.add_left_cancel hcol, Int.add_left_cancel hrow⟩

/-- The shares go to later pixels only. -/
theorem IsNeighbour.gt (hmem : n ∈ ditherWeights) (hx : x < w) (hn : IsNeighbour w h x y n j) : y * w + x < j := by
  obtain ⟨hleft, hright, -, -, hindex⟩ := hn
  zify
  rcases ditherWeights_offset n hmem with ⟨hdx, hdy⟩ | ⟨hdx, hdy⟩ <;> rw [hdy] at hindex
  · rw [Int.add_zero] at hindex
    omega
  · have hnext : ((y : Int) + 1) * w = y * w + w := by ring
    omega

/-! ## What one share and one pixel do to each byte (42_dither.md R222-R224) -/

theorem getD_set_self {c : List Byte} {i : Nat} (hi : i < c.length) (b d : Byte) : (c.set i b).getD i d = b := by
  simp [hi]

theorem getD_set_ne {c : List Byte} {i k : Nat} (hne : i ≠ k) (b d : Byte) : (c.set i b).getD k d = c.getD k d := by
  simp [hne]

theorem set_getD_self (c : List Byte) (i : Nat) (d : Byte) : c.set i (c.getD i d) = c := by
  by_cases hi : i < c.length
  · rw [List.getD_eq_getElem c d hi, List.set_getElem_self]
  · exact List.set_eq_of_length_le (Nat.le_of_not_lt hi)

theorem ditherSend_of_isNeighbour (hn : IsNeighbour w h x y n j) (err : Int) (c : List Byte) :
    ditherSend w h err x y c n = c.set j (ditherShare (c.getD j 0#8) err n.2.2) := by
  obtain ⟨hleft, hright, -, hbelow, hindex⟩ := hn
  unfold ditherSend
  rw [if_pos ⟨hleft, hright, hbelow⟩, ← hindex, Int.toNat_natCast]

theorem ditherSend_outside (hout : ¬(0 ≤ (x : Int) + n.1 ∧ (x : Int) + n.1 < w ∧ (y : Int) + n.2.1 < h))
    (err : Int) (c : List Byte) : ditherSend w h err x y c n = c := if_neg hout

/-- The neighbour at column `x'` and row `y'`. -/
theorem isNeighbour_of_offset {x' y' : Nat} (habove : 0 ≤ n.2.1) (hx : (x : Int) + n.1 = x')
    (hy : (y : Int) + n.2.1 = y') (hx' : x' < w) (hy' : y' < h) (hj : j = y' * w + x') : IsNeighbour w h x y n j := by
  refine ⟨?_, ?_, habove, ?_, ?_⟩ <;> simp [hx, hy, hx', hy', hj]

theorem isNeighbour_of_inside (habove : 0 ≤ n.2.1)
    (hin : 0 ≤ (x : Int) + n.1 ∧ (x : Int) + n.1 < w ∧ (y : Int) + n.2.1 < h) :
    IsNeighbour w h x y n (((y : Int) + n.2.1) * w + (x + n.1)).toNat := by
  obtain ⟨hleft, hright, hbelow⟩ := hin
  have hindex : 0 ≤ ((y : Int) + n.2.1) * w + (x + n.1) := by positivity
  exact ⟨hleft, hright, habove, hbelow, Int.toNat_of_nonneg hindex⟩

theorem ditherSend_getD_of_not_isNeighbour (habove : 0 ≤ n.2.1) (hn : ¬IsNeighbour w h x y n j) (err : Int)
    (c : List Byte) (d : Byte) : (ditherSend w h err x y c n).getD j d = c.getD j d := by
  by_cases hin : 0 ≤ (x : Int) + n.1 ∧ (x : Int) + n.1 < w ∧ (y : Int) + n.2.1 < h
  · have hk := isNeighbour_of_inside habove hin
    have hne : (((y : Int) + n.2.1) * w + (x + n.1)).toNat ≠ j := fun e => hn (e ▸ hk)
    rw [ditherSend_of_isNeighbour hk, getD_set_ne hne]
  · rw [ditherSend_outside hin]

theorem foldl_ditherSend_getD_of_not_isNeighbour {ns : List (Int × Int × Int)} (habove : ∀ n ∈ ns, 0 ≤ n.2.1)
    (hns : ∀ n ∈ ns, ¬IsNeighbour w h x y n j) (err : Int) (c : List Byte) (d : Byte) :
    (ns.foldl (ditherSend w h err x y) c).getD j d = c.getD j d :=
  ns.foldlRecOn (motive := fun c' : List Byte => c'.getD j d = c.getD j d) _ rfl fun c' hc' n hn => by
    rw [ditherSend_getD_of_not_isNeighbour (habove n hn) (hns n hn), hc']

/-- Of entries with different offsets only one names `j`: its share is what byte `j` receives. -/
theorem foldl_ditherSend_getD_of_isNeighbour {ns : List (Int × Int × Int)} (habove : ∀ n ∈ ns, 0 ≤ n.2.1)
    (hdistinct : ns.Pairwise fun m n => ¬(m.1 = n.1 ∧ m.2.1 = n.2.1)) (hmem : n ∈ ns)
    (hn : IsNeighbour w h x y n j) (err : Int) {c : List Byte} (hlen : c.length = w * h) :
    (ns.foldl (ditherSend w h err x y) c).getD j 0#8 = ditherShare (c.getD j 0#8) err n.2.2 := by
  induction ns generalizing c with
  | nil => cases hmem
  | cons m ns ih =>
    obtain ⟨hm, hrest⟩ := List.pairwise_cons.mp hdistinct
    obtain ⟨hmabove, hnsabove⟩ := List.forall_mem_cons.mp habove
    rw [List.foldl_cons]
    rcases List.mem_cons.mp hmem with rfl | hmem
    · rw [foldl_ditherSend_getD_of_not_isNeighbour hnsabove fun k hk hkn => hm k hk (hn.offset_unique hkn),
        ditherSend_of_isNeighbour hn, getD_set_self (hlen ▸ hn.lt)]
    · rw [ih hnsabove hrest hmem (by rw [ditherSend_length, hlen]),
        ditherSend_getD_of_not_isNeighbour hmabove fun hmn => hm n hmem (hmn.offset_unique hn)]

end Neighbours

section Pixel
variable {w h i j : Nat} {c : List Byte}

/-- A pixel leaves the bytes that are neither its own nor a neighbour's. -/
theorem ditherPixel_getD_of_ne (hne : i ≠ j) (hns : ∀ n ∈ ditherWeights, ¬IsNeighbour w h (i % w) (i / w) n j)
    (c : List Byte) (d : Byte) : (ditherPixel w h c i).getD j d = c.getD j d := by
  rw [ditherPixel, foldl_ditherSend_getD_of_not_isNeighbour ditherWeights_above hns, getD_set_ne hne]

theorem not_isNeighbour_of_le (hle : j ≤ i) : ∀ n ∈ ditherWeights, ¬IsNeighbour w h (i % w) (i / w) n j :=
  fun _ hmem hn => by
    have hw : 0 < w := by have := hn.left.trans_lt hn.right; omega
    have hgt := hn.gt hmem (Nat.mod_lt i hw)
    rw [Nat.div_add_mod'] at hgt
    omega

theorem ditherPixel_getD_of_lt (hlt : j < i) (c : List Byte) (d : Byte) :
    (ditherPixel w h c i).getD j d = c.getD j d :=
  ditherPixel_getD_of_ne hlt.ne' (not_isNeighbour_of_le hlt.le) c d

theorem ditherPixel_getD_self (hi : i < c.length) (d : Byte) :
    (ditherPixel w h c i).getD i d = ditherNew (c.getD i 0#8) := by
  rw [ditherPixel, foldl_ditherSend_getD_of_not_isNeighbour ditherWeights_above (not_isNeighbour_of_le le_rfl),
    getD_set_self hi]

theorem ditherPixel_getD_neighbour {n : Int × Int × Int} (hmem : n ∈ ditherWeights)
    (hn : IsNeighbour w h (i % w) (i / w) n j) (hlen : c.length = w * h) :
    (ditherPixel w h c i).getD j 0#8 = ditherShare (c.getD j 0#8) (ditherErr (c.getD i 0#8)) n.2.2 := by
  have hne : i ≠ j := fun e => not_isNeighbour_of_le e.ge n hmem hn
  rw [ditherPixel, foldl_ditherSend_getD_of_isNeighbour ditherWeights_above ditherWeights_distinct hmem hn _
    (by rw [List.length_set, hlen]), getD_set_ne hne]

end Pixel

/-! ## The bytes of the dithered canvas -/

/-- The canvas after the first `k` pixels of the scan (42_dither.md R224). -/
def ditherPrefix (w h : Nat) (c : List Byte) (k : Nat) : List Byte := (List.range k).foldl (ditherPixel w h) c

theorem ditherBytes_eq_prefix (w h : Nat) (c : List Byte) : ditherBytes w h c = ditherPrefix w h c (w * h) := rfl

theorem ditherPrefix_zero (w h : Nat) (c : List Byte) : ditherPrefix w h c 0 = c := rfl

theorem ditherPrefix_succ (w h : Nat) (c : List Byte) (k : Nat) :
    ditherPrefix w h c (k + 1) = ditherPixel w h (ditherPrefix w h c k) k := by
  simp [ditherPrefix, List.range_succ]

@[simp] theorem ditherPrefix_length (w h : Nat) (c : List Byte) (k : Nat) :
    (ditherPrefix w h c k).length = c.length := by
  induction k with
  | zero => rfl
  | succ k ih => rw [ditherPrefix_succ, ditherPixel_length, ih]

/-- A byte of the result is the threshold of what the byte holds when the scan reaches it. -/
theorem ditherBytes_getD {w h i : Nat} {c : List Byte} (hlen : c.length = w * h) (hi : i < w * h) :
    (ditherBytes w h c).getD i 0#8 = ditherNew ((ditherPrefix w h c i).getD i 0#8) := by
  rw [ditherBytes_eq_prefix]
  induction w * h, Nat.succ_le_of_lt hi using Nat.le_induction with
  | base => rw [ditherPrefix_succ, ditherPixel_getD_self (by rw [ditherPrefix_length, hlen]; exact hi)]
  | succ k hk ih => rw [ditherPrefix_succ, ditherPixel_getD_of_lt hk, ih]

/-! ## Canvases with no error to send (42_dither.md R225) -/

theorem ditherSend_zero (w h x y : Nat) (n : Int × Int × Int) (c : List Byte) : ditherSend w h 0 x y c n = c := by
  simp only [ditherSend, ditherShare_zero, set_getD_self, ite_self]

/-- A pixel whose byte is its own threshold sends the error 0. -/
theorem ditherPixel_of_fixed {w h i : Nat} {c : List Byte} (hfixed : ditherNew (c.getD i 0#8) = c.getD i 0#8) :
    ditherPixel w h c i = c := by
  rw [ditherPixel, ditherErr_of_fixed hfixed, hfixed, set_getD_self]
  exact List.foldl_fixed' (fun n => ditherSend_zero w h _ _ n c) _

theorem ditherBytes_of_fixed {c : List Byte} (hfixed : ∀ i, ditherNew (c.getD i 0#8) = c.getD i 0#8) (w h : Nat) :
    ditherBytes w h c = c :=
  List.foldl_fixed' (fun i => ditherPixel_of_fixed (hfixed i)) _

/-! ## The nested loops of R224 -/

/-- One share on a canvas of integers: the local `send` of the pseudocode. -/
def sendInts (w h : Nat) (err : Int) (x y : Nat) (v : Nat → Int) (n : Int × Int × Int) : Nat → Int :=
  if 0 ≤ (x : Int) + n.1 ∧ (x : Int) + n.1 < w ∧ (y : Int) + n.2.1 < h then
    Function.update v (((y : Int) + n.2.1) * w + (x + n.1)).toNat
      (max 0 (min 255 (v (((y : Int) + n.2.1) * w + (x + n.1)).toNat + Int.tdiv (err * n.2.2) 16)))
  else v

theorem ditherCell_eq_foldl (w h x y : Nat) (v : Nat → Int) :
    Claims.ditherCell w h x y v =
      ditherWeights.foldl (sendInts w h (v (y * w + x) - if v (y * w + x) > 127 then 255 else 0) x y)
        (Function.update v (y * w + x) (if v (y * w + x) > 127 then 255 else 0)) := rfl

/-- The list of W·H bytes `c` stands for the integers `v`. -/
structure Denotes (w h : Nat) (c : List Byte) (v : Nat → Int) : Prop where
  length : c.length = w * h
  value : ∀ i, byteInt (c.getD i 0#8) = v i

section Denotes
variable {w h x y i : Nat} {c : List Byte} {v : Nat → Int}

theorem Denotes.set (hc : Denotes w h c v) (hi : i < w * h) (b : Byte) :
    Denotes w h (c.set i b) (Function.update v i (byteInt b)) := by
  refine ⟨by rw [List.length_set, hc.length], fun k => ?_⟩
  by_cases hk : k = i
  · subst hk
    rw [getD_set_self (hc.length ▸ hi), Function.update_self]
  · rw [getD_set_ne (Ne.symm hk), Function.update_of_ne hk, hc.value]

theorem Denotes.ditherSend (hc : Denotes w h c v) {n : Int × Int × Int} (habove : 0 ≤ n.2.1) (err : Int) :
    Denotes w h (ditherSend w h err x y c n) (sendInts w h err x y v n) := by
  by_cases hin : 0 ≤ (x : Int) + n.1 ∧ (x : Int) + n.1 < w ∧ (y : Int) + n.2.1 < h
  · have hn := isNeighbour_of_inside habove hin
    rw [ditherSend_of_isNeighbour hn, sendInts, if_pos hin, ← hc.value, ← byteInt_ditherShare]
    exact hc.set hn.lt _
  · rw [ditherSend_outside hin, sendInts, if_neg hin]
    exact hc

theorem Denotes.ditherPixel (hc : Denotes w h c v) (hx : x < w) (hy : y < h) :
    Denotes w h (ditherPixel w h c (y * w + x)) (Claims.ditherCell w h x y v) := by
  have hcol : (y * w + x) % w = x := by rw [Nat.mul_add_mod_self_right, Nat.mod_eq_of_lt hx]
  have hrow : (y * w + x) / w = y := by
    rw [Nat.add_comm, Nat.add_mul_div_right _ _ (by omega), Nat.div_eq_of_lt hx, Nat.zero_add]
  have hi : y * w + x < w * h := by nlinarith
  have herr : ditherErr (c.getD (y * w + x) 0#8) = v (y * w + x) - if v (y * w + x) > 127 then 255 else 0 := by
    rw [ditherErr, byteInt_ditherNew, hc.value]
  have hset := hc.set hi (ditherNew (c.getD (y * w + x) 0#8))
  rw [byteInt_ditherNew, hc.value] at hset
  rw [Machine.ditherPixel, hcol, hrow, herr, ditherCell_eq_foldl]
  exact List.foldl_rel hset fun n hn c' v' hc' => hc'.ditherSend (ditherWeights_above n hn) _

end Denotes

/-- Scan order is row-major: one loop over the indices is the loop over the rows of the loops over the columns. -/
theorem foldl_range_mul {α : Type} (f : α → Nat → α) (w h : Nat) (a : α) :
    (List.range (w * h)).foldl f a =
      (List.range h).foldl (fun a y => (List.range w).foldl (fun a x => f a (y * w + x)) a) a := by
  induction h with
  | zero => rfl
  | succ h ih =>
    rw [Nat.mul_succ, List.range_add, List.foldl_append, ih, List.range_succ, List.foldl_append, List.foldl_map,
      Nat.mul_comm w h]
    rfl

theorem Denotes.ditherBytes {w h : Nat} {c : List Byte} {v : Nat → Int} (hc : Denotes w h c v) :
    Denotes w h (ditherBytes w h c) (Claims.ditherLoops w h v) := by
  rw [Machine.ditherBytes, foldl_range_mul]
  exact List.foldl_rel hc fun y hy _ _ hrow => List.foldl_rel hrow fun x hx _ _ hcell =>
    hcell.ditherPixel (List.mem_range.mp hx) (List.mem_range.mp hy)

/-! ## One column, one row -/

theorem foldl_ditherSend_one_column (h y : Nat) (err : Int) (c : List Byte) :
    ditherWeights.foldl (ditherSend 1 h err 0 y) c =
      if y + 1 < h then c.set (y + 1) (ditherShare (c.getD (y + 1) 0#8) err 5) else c := by
  have hright (c) : ditherSend 1 h err 0 y c (1, 0, 7) = c := ditherSend_outside (by simp) err c
  have hbelowLeft (c) : ditherSend 1 h err 0 y c (-1, 1, 3) = c := ditherSend_outside (by simp) err c
  have hbelowRight (c) : ditherSend 1 h err 0 y c (1, 1, 1) = c := ditherSend_outside (by simp) err c
  simp only [ditherWeights, List.foldl_cons, List.foldl_nil, hright, hbelowLeft, hbelowRight]
  split
  · next hy =>
    have hn : IsNeighbour 1 h 0 y (0, 1, 5) (y + 1) :=
      isNeighbour_of_offset zero_le_one rfl rfl Nat.zero_lt_one hy (Nat.mul_one _).symm
    exact ditherSend_of_isNeighbour hn err c
  · next hy => exact ditherSend_outside (by dsimp only; omega) err c

theorem foldl_ditherSend_one_row (w x : Nat) (err : Int) (c : List Byte) :
    ditherWeights.foldl (ditherSend w 1 err x 0) c =
      if x + 1 < w then c.set (x + 1) (ditherShare (c.getD (x + 1) 0#8) err 7) else c := by
  have hbelow (dx wt c) : ditherSend w 1 err x 0 c (dx, 1, wt) = c := ditherSend_outside (by simp) err c
  simp only [ditherWeights, List.foldl_cons, List.foldl_nil, hbelow]
  split
  · next hx =>
    have hn : IsNeighbour w 1 x 0 (1, 0, 7) (x + 1) :=
      isNeighbour_of_offset (x' := x + 1) (y' := 0) le_rfl (by simp) rfl hx Nat.zero_lt_one (by omega)
    exact ditherSend_of_isNeighbour hn err c
  · next hx => exact ditherSend_outside (by dsimp only; omega) err c

/-! ## The all-127 canvas -/

/-- In the first row only the pixels of columns 0 and 1 reach the pixel below the origin. -/
theorem not_isNeighbour_below_origin {w h x : Nat} (hx : 2 ≤ x) :
    ∀ n ∈ ditherWeights, ¬IsNeighbour w h x 0 n w := by
  intro n hmem hn
  obtain ⟨-, hright, -, -, hindex⟩ := hn
  rcases ditherWeights_offset n hmem with ⟨hdx, hdy⟩ | ⟨hdx, hdy⟩ <;> simp [hdy] at hindex <;> omega

section MidGrey
variable {w h : Nat} {c : List Byte} (hw : 2 ≤ w) (hh : 2 ≤ h) (hlen : c.length = w * h)
  (hgrey : ∀ i, i < w * h → c.getD i 0#8 = 127#8)
include hw hh hlen hgrey

theorem ditherBytes_midGrey_origin : (ditherBytes w h c).getD 0 0#8 = 0#8 := by
  have h0 : 0 < w * h := by positivity
  rw [ditherBytes_getD hlen h0, ditherPrefix_zero, hgrey 0 h0]
  rfl

/-- The pixel right of the origin holds 127 plus the share of weight 7 of the error 127. -/
theorem ditherPrefix_midGrey_right : (ditherPrefix w h c 1).getD 1 0#8 = 182#8 := by
  have hcell : 1 < w * h := by nlinarith
  have hn : IsNeighbour w h (0 % w) (0 / w) (1, 0, 7) 1 := by
    rw [Nat.zero_mod, Nat.zero_div]
    exact isNeighbour_of_offset (x' := 1) (y' := 0) le_rfl rfl rfl (by omega) (by omega) (by omega)
  rw [ditherPrefix_succ, ditherPrefix_zero, ditherPixel_getD_neighbour (by decide) hn hlen, hgrey 0 (by omega),
    hgrey 1 hcell]
  decide

theorem ditherBytes_midGrey_right : (ditherBytes w h c).getD 1 0#8 = 255#8 := by
  rw [ditherBytes_getD hlen (by nlinarith), ditherPrefix_midGrey_right hw hh hlen hgrey]
  rfl

/-- The pixel below the origin holds 127 plus the share of weight 5 of the error 127. -/
theorem ditherPrefix_midGrey_below_origin : (ditherPrefix w h c 1).getD w 0#8 = 166#8 := by
  have hcell : w < w * h := by nlinarith
  have hn : IsNeighbour w h (0 % w) (0 / w) (0, 1, 5) w := by
    rw [Nat.zero_mod, Nat.zero_div]
    exact isNeighbour_of_offset (x' := 0) (y' := 1) zero_le_one rfl rfl (by omega) (by omega) (by omega)
  rw [ditherPrefix_succ, ditherPrefix_zero, ditherPixel_getD_neighbour (by decide) hn hlen, hgrey 0 (by omega),
    hgrey w hcell]
  decide

/-- The second pixel takes 13 from the pixel below the origin; the rest of the first row leaves it. -/
theorem ditherPrefix_midGrey_below {k : Nat} (hk : 2 ≤ k) (hkw : k ≤ w) :
    (ditherPrefix w h c k).getD w 0#8 = 153#8 := by
  induction k, hk using Nat.le_induction with
  | base =>
    have hn : IsNeighbour w h (1 % w) (1 / w) (-1, 1, 3) w := by
      rw [Nat.mod_eq_of_lt (by omega), Nat.div_eq_of_lt (by omega)]
      exact isNeighbour_of_offset (x' := 0) (y' := 1) zero_le_one rfl rfl (by omega) (by omega) (by omega)
    rw [ditherPrefix_succ, ditherPixel_getD_neighbour (by decide) hn (by rw [ditherPrefix_length, hlen]),
      ditherPrefix_midGrey_below_origin hw hh hlen hgrey, ditherPrefix_midGrey_right hw hh hlen hgrey]
    decide
  | succ k hk ih =>
    rw [ditherPrefix_succ, ditherPixel_getD_of_ne (by omega), ih (by omega)]
    rw [Nat.mod_eq_of_lt hkw, Nat.div_eq_of_lt hkw]
    exact not_isNeighbour_below_origin hk

theorem ditherBytes_midGrey_below : (ditherBytes w h c).getD w 0#8 = 255#8 := by
  rw [ditherBytes_getD hlen (by nlinarith), ditherPrefix_midGrey_below hw hh hlen hgrey hw le_rfl]
  rfl

end MidGrey

/-! ## The commands DITHER and RENDER -/

theorem exec_dither (s : State) : exec .dither s = .next s.ditherCanvas.finish := rfl

theorem exec_render (s : State) : exec .render s = .next s.fillCanvas.ditherCanvas.finish := rfl

/-- Clearing BUSY before `dither()` does not show in what it answers. -/
theorem State.finish_ditherCanvas_finish (s : State) : s.finish.ditherCanvas.finish = s.ditherCanvas.finish := rfl

theorem State.ditherCanvas_canvasByte_inside {s : State} {i : Nat} (hi : i < s.width * s.height) :
    s.ditherCanvas.canvasByte i = (ditherBytes s.width s.height s.canvasBytes).getD i 0#8 := by
  have hlen : i < (ditherBytes s.width s.height s.canvasBytes).length := by
    rw [ditherBytes_length, State.canvasBytes_length]; exact hi
  rw [State.ditherCanvas_canvasByte, List.getD_eq_getElem _ _ hlen, List.getD_eq_getElem _ _ hlen]

theorem State.ditherCanvas_canvasByte_outside {s : State} {i : Nat} (hi : s.width * s.height ≤ i) :
    s.ditherCanvas.canvasByte i = s.canvasByte i := by
  rw [State.ditherCanvas_canvasByte, List.getD_eq_default _ _ (by
    rw [ditherBytes_length, State.canvasBytes_length]; exact hi)]

theorem State.fillCanvas_canvasByte_outside {s : State} {i : Nat} (hi : s.width * s.height ≤ i) :
    s.fillCanvas.canvasByte i = s.canvasByte i := by
  rw [State.fillCanvas_canvasByte, List.getD_eq_default _ _ (by rw [fillBytes_length]; exact hi)]

/-- A canvas each of whose bytes is its own threshold is left as it is. -/
theorem State.ditherCanvas_canvasByte_of_fixed {s : State}
    (hfixed : ∀ i, i < s.width * s.height → ditherNew (s.canvasByte i) = s.canvasByte i) (i : Nat) :
    s.ditherCanvas.canvasByte i = s.canvasByte i := by
  have hbytes : ditherBytes s.width s.height s.canvasBytes = s.canvasBytes := by
    refine ditherBytes_of_fixed (fun k => ?_) _ _
    by_cases hk : k < s.cells
    · rw [State.canvasBytes_getD s k _ hk]
      exact hfixed k hk
    · rw [List.getD_eq_default _ _ (by rw [State.canvasBytes_length]; omega)]
      rfl
  by_cases hi : i < s.cells
  · rw [State.ditherCanvas_canvasByte_inside hi, hbytes, State.canvasBytes_getD s i _ hi]
  · exact State.ditherCanvas_canvasByte_outside (Nat.le_of_not_lt hi)

theorem State.ditherCanvas_canvasBytes (s : State) :
    s.ditherCanvas.canvasBytes = ditherBytes s.width s.height s.canvasBytes :=
  State.canvasBytes_setCanvasBytes _ _ (by rw [ditherBytes_length, State.canvasBytes_length])

/-- R226's example: the dithered gradient of the 4 × 2 canvas. -/
theorem ditherBytes_gradient : ditherBytes 4 2 (gradientRow ++ gradientRow) =
    [0#8, 0#8, 255#8, 255#8, 0#8, 0#8, 0#8, 255#8] := by decide +kernel

/-! ## The statements -/

/-- Settles O37: thresholding a byte and sending a share keep the list of bytes and the canvas of integers equal, so the
two folds agree pixel by pixel. -/
theorem ditherIsTheNestedLoops : Obligations.DitherIsTheNestedLoops := by
  unfold Obligations.DitherIsTheNestedLoops
  intro w h c hlen i _
  have hc : Denotes w h c fun j => ((c.getD j 0#8).toNat : Int) := ⟨hlen, fun _ => rfl⟩
  exact ⟨hc.ditherBytes.value i, by decide⟩

/-- Settles O38: the bytes are read back from what `dither()` wrote; a uniform canvas of 0 or 255 has no error to send;
on the all-127 canvas the three bytes are thresholds of 127, 182 and 153. -/
theorem ditherCommandDithersTheCanvas : Obligations.DitherCommandDithersTheCanvas := by
  unfold Obligations.DitherCommandDithersTheCanvas
  refine ⟨fun s => ⟨_, exec_dither s, rfl, fun i hi => ?_, fun i hi => ?_, fun b hb hall i => ?_⟩, rfl,
    foldl_ditherSend_one_column, foldl_ditherSend_one_row, fun s hw hh hall => ?_⟩
  · exact State.ditherCanvas_canvasByte_inside hi
  · exact State.ditherCanvas_canvasByte_outside hi
  · have hfixed : ∀ b ∈ [0#8, 255#8], ditherNew b = b := by decide
    exact State.ditherCanvas_canvasByte_of_fixed (fun k hk => by rw [hall k hk, hfixed b hb]) i
  · have hlen : s.canvasBytes.length = s.width * s.height := s.canvasBytes_length
    have hgrey : ∀ i, i < s.width * s.height → s.canvasBytes.getD i 0#8 = 127#8 := fun i hi =>
      (s.canvasBytes_getD i _ hi).trans (hall i hi)
    refine ⟨_, exec_dither s, ?_, ?_, ?_⟩ <;> rw [State.finish_canvasByte]
    · rw [State.ditherCanvas_canvasByte_inside (by positivity)]
      exact ditherBytes_midGrey_origin hw hh hlen hgrey
    · rw [State.ditherCanvas_canvasByte_inside (by nlinarith)]
      exact ditherBytes_midGrey_right hw hh hlen hgrey
    · rw [State.ditherCanvas_canvasByte_inside (by nlinarith)]
      exact ditherBytes_midGrey_below hw hh hlen hgrey

/-- Settles O40: DITHER reads nothing that FILL's `finish` changes, so RENDER answers what the two commands do. -/
theorem renderIsFillThenDither : Obligations.RenderIsFillThenDither := by
  unfold Obligations.RenderIsFillThenDither
  refine ⟨fun s => ⟨_, _, exec_fill s, exec_dither _, ?_, rfl, fun i hi => ?_⟩, rfl,
    fun s hw hh hkind hns hinv => ⟨_, exec_render s, ?_⟩⟩
  · rw [exec_render, State.finish_ditherCanvas_finish]
  · calc s.fillCanvas.ditherCanvas.canvasByte i
      _ = s.fillCanvas.canvasByte i := State.ditherCanvas_canvasByte_outside hi
      _ = s.canvasByte i := State.fillCanvas_canvasByte_outside hi
  · rw [State.finish_canvasBytes, State.ditherCanvas_canvasBytes, State.fillCanvas_canvasBytes,
      State.fillCanvas_width, State.fillCanvas_height, State.fillBytes_gradient hw hh hkind hns hinv, hw, hh,
      ditherBytes_gradient]

/-- Settles O36, by the threshold read on the byte's number. -/
theorem thresholdAndErrorOfEveryByte : Obligations.ThresholdAndErrorOfEveryByte := by
  unfold Obligations.ThresholdAndErrorOfEveryByte
  intro old
  refine ⟨?_, rfl⟩
  have hnew := byteInt_ditherNew old
  unfold byteInt at hnew
  split_ifs at hnew ⊢ <;> omega

end Sys2Proof.Machine
end

section
/-! PROOFS. The statements of 49_host_animator.md about the next and the previous pattern, and what one statement of
the host's program does from an idle state. -/

namespace Sys2Proof.Machine

/-! ## The step of each kind of statement while BUSY = 0 -/

section IdleStep
variable {s : State} {rest : List HostOp} (hidle : s.busy = false)
include hidle

theorem step_op_of_idle {op : HostOp} (hp : s.program = op :: rest) :
    step s = .next (hostOp op { s with program := rest, polls := s.polls - 1 }) := by
  rw [step_host (engineTurn_of_idle hidle), hostStep_cons hp]

/-- A call puts the procedure's expansion in front of the program and takes one draw slot (R251, log 20). -/
theorem step_call_of_idle {p : Procedure} (hp : s.program = .call p :: rest) :
    step s = .next { s with
      program := expandProcedure p (Config.freeWord s.draws) ++ rest
      polls := s.polls - 1
      draws := s.draws + 1 } :=
  step_op_of_idle hidle hp

theorem step_opRd_of_idle {r : Reg} (hp : s.program = opRd r :: rest) :
    step s = .next { s with
      program := rest
      polls := s.polls - 1
      received := some (s.readReg r) :: s.received } := by
  have hread : { s with program := rest, polls := s.polls - 1 }.readReg r = s.readReg r := by cases r <;> rfl
  rw [step_op_of_idle hidle hp, opRd, hostOp,
    State.busRead_reg { s with program := rest, polls := s.polls - 1 } r hidle, hread]

theorem step_opWr_of_idle {r : Reg} {v : Word} (hp : s.program = opWr r v :: rest) :
    step s = .next ({ s with program := rest, polls := s.polls - 1 }.writeReg r v) := by
  rw [step_op_of_idle hidle hp, opWr, hostOp,
    State.busWrite_reg { s with program := rest, polls := s.polls - 1 } r v hidle]

/-- After a read of KIND, the host's sum puts the write of the new KIND in front of the program (R260, R261). -/
theorem step_addToKind_of_idle {k : Nat} {v : Word} {reads : List (Option Word)}
    (hp : s.program = .compute (.addToKind k) :: rest) (hreads : s.received = some v :: reads) :
    step s = .next { s with
      program := opWr .kind (kindPlus v k) :: rest
      polls := s.polls - 1
      draws := s.draws + 1 } := by
  rw [step_op_of_idle hidle hp]
  simp [hostOp, hostCalc, State.lastRead, hreads, State.prepend, State.nextSlot]

/-! ## The two procedures -/

/-- Four steps: the call, the read of KIND, the sum and the write of KIND; none of the first three writes BUSY, so
`hidle` holds of each state between them by definition. -/
theorem run_call_addToKind {p : Procedure} {k : Nat}
    (hexpand : ∀ time, expandProcedure p time = [opRd .kind, .compute (.addToKind k)])
    (hp : s.program = .call p :: rest) :
    Host.Core.run Sys2Proof.core 4 s = .next { s with
      kind := kindPlus s.kind k
      program := rest
      polls := s.polls - 4
      draws := s.draws + 2
      received := some s.kind :: s.received } := by
  have hcall := step_call_of_idle hidle hp
  rw [hexpand] at hcall
  calc Host.Core.run Sys2Proof.core 4 s
    _ = _ := run_next hcall 3
    _ = _ := run_next (step_opRd_of_idle (by exact hidle) rfl) 2
    _ = _ := run_next (step_addToKind_of_idle (by exact hidle) rfl rfl) 1
    _ = _ := run_next (step_opWr_of_idle (by exact hidle) rfl) 0

end IdleStep

theorem kindPlus_toNat (kind : Word) (k : Nat) : (kindPlus kind k).toNat = (kind.toNat + k) % 10 := by
  simp only [kindPlus, BitVec.toNat_ofNat]
  omega

/-! ## The statement -/

/-- Settles O54: both procedures read KIND, add to it modulo 10 and write it back, and no other field of the block is
written. -/
theorem nextAndPreviousPatternWrapModTen : Obligations.NextAndPreviousPatternWrapModTen := by
  unfold Obligations.NextAndPreviousPatternWrapModTen
  intro s rest hidle
  refine ⟨fun hp => ?next, fun hp => ?previous, by decide, by decide⟩
  case next =>
    exact ⟨4, _, run_call_addToKind hidle (fun _ => rfl) hp, kindPlus_toNat s.kind 1, rfl, by simp [State.SameBlock]⟩
  case previous =>
    exact ⟨4, _, run_call_addToKind hidle (fun _ => rfl) hp, kindPlus_toNat s.kind 9, rfl, by simp [State.SameBlock]⟩

end Sys2Proof.Machine
end

section
/-! PROOFS. The statements of 70_reset_and_hazards.md: what the reset event gives, what a host read of an unwritten
canvas byte returns, and what an access does while BUSY = 1. -/

namespace Sys2Proof.Machine

/-! ## Unwritten canvas bytes (70_reset_and_hazards.md R312) -/

theorem State.canvasByte_of_unwritten {s : State} {i : Nat} (hunwritten : cellFind i s.canvas = none) :
    s.canvasByte i = Config.resetByte s.resets i := by simp [State.canvasByte, hunwritten]

theorem State.busRead_of_unwritten {s : State} {i : Nat} (hidle : s.busy = false) (hi : i < s.cells)
    (hcells : s.cells ≤ 2 ^ 20) (hunwritten : cellFind i s.canvas = none) :
    s.busRead (cellAddr i) 1 = (s, some (zext32 (Config.resetByte s.resets i))) := by
  rw [s.busRead_cell hidle hi hcells, State.canvasByte_of_unwritten hunwritten]

theorem State.cellFind_setCanvasByte_of_ne (s : State) {i j : Nat} (hne : j ≠ i) (b : Byte) :
    cellFind i (s.setCanvasByte j b).canvas = cellFind i s.canvas := by
  rw [State.setCanvasByte_canvas, cellFind_cellPut, if_neg hne.symm]

/-! ## The state after the reset event (70_reset_and_hazards.md R310) -/

theorem State.cellFind_resetEvent (s : State) (i : Nat) : cellFind i s.resetEvent.canvas = none := rfl

theorem State.canvasByte_resetEvent (s : State) (i : Nat) :
    s.resetEvent.canvasByte i = Config.resetByte (s.resets + 1) i :=
  State.canvasByte_of_unwritten (s.cellFind_resetEvent i)

theorem State.readReg_resetEvent_status (s : State) : s.resetEvent.readReg .status = 0#32 :=
  State.statusWord_of_clear s.resetEvent_busy s.resetEvent_err s.resetEvent_errCode

/-! ## The hazard rule (70_reset_and_hazards.md R315) -/

theorem isStatusRead_iff (a : BusAddr) (n : Nat) : isStatusRead a n = true ↔ a = regOffset .status ∧ n = 4 := by
  simp [isStatusRead]

theorem isStatusRead_eq_false {a : BusAddr} {n : Nat} (h : ¬(a = regOffset .status ∧ n = 4)) :
    isStatusRead a n = false :=
  Bool.eq_false_iff.mpr (mt (isStatusRead_iff a n).mp h)

theorem State.mem_faults_recordFault (s : State) (f : FaultRecord) : f ∈ (s.recordFault f).faults :=
  (mem_faultInsert f f s.faults).mpr (.inl rfl)

/-! ## The statements -/

/-- Settles O2: the read gives the draw of a byte with no record; reset leaves no record, and a write of another byte
makes none for this one. -/
theorem unwrittenByteReadsItsResetDraw : Obligations.UnwrittenByteReadsItsResetDraw := by
  unfold Obligations.UnwrittenByteReadsItsResetDraw
  refine ⟨State.cellFind_resetEvent, fun s i hidle hi hcells hunwritten => ⟨?_, fun j b hne => ?_⟩⟩
  · exact State.busRead_of_unwritten hidle hi hcells hunwritten
  · have hstill : cellFind i (s.setCanvasByte j b).canvas = none :=
      (s.cellFind_setCanvasByte_of_ne hne b).trans hunwritten
    exact State.busRead_of_unwritten (s := s.setCanvasByte j b) hidle hi hcells hstill

/-- Settles O48: the STATUS read is always performed; every other access is `recordFault` of its hazard, which adds that
record and keeps the rest. -/
theorem busyHazardRecordsEveryOtherAccess : Obligations.BusyHazardRecordsEveryOtherAccess := by
  unfold Obligations.BusyHazardRecordsEveryOtherAccess
  intro s hbusy
  refine ⟨⟨s.busRead_status, s.statusWord_bit0.trans hbusy⟩, fun a n hother => ?read, fun a n v => ?write⟩
  case read =>
    exact ⟨_, s.busRead_busy hbusy (isStatusRead_eq_false hother), s.mem_faults_recordFault (.hazardAccess a),
      fun _ hf => s.faults_subset_recordFault (.hazardAccess a) hf, fun _ => rfl⟩
  case write =>
    exact ⟨_, s.busWrite_busy a n v hbusy, s.mem_faults_recordFault (.hazardAccess a),
      fun _ hf => s.faults_subset_recordFault (.hazardAccess a) hf, fun _ => rfl⟩

/-- Settles O1: `resetEvent` writes R310's table field by field; STATUS is the word of three clear fields, and each
canvas byte is unwritten. -/
theorem resetEventGivesTheDocumentedState : Obligations.ResetEventGivesTheDocumentedState := by
  unfold Obligations.ResetEventGivesTheDocumentedState
  intro s
  exact ⟨rfl, s.readReg_resetEvent_status, s.resetEvent_busy, s.resetEvent_err, s.resetEvent_errCode, s.resetEvent_cl,
    rfl, s.resetEvent_arg0, s.resetEvent_arg1, s.resetEvent_arg2, s.resetEvent_result, s.resetEvent_seed,
    s.resetEvent_kind, s.resetEvent_freq, s.resetEvent_nscale, rfl, rfl, rfl, rfl, s.canvasByte_resetEvent,
    s.resetEvent_block, rfl, rfl, rfl, s.resetEvent_scan, s.resetEvent_faults⟩

end Sys2Proof.Machine
end

section
/-! PROOFS. What a step does to the block: the machine's invariant, the frame of the eight commands, and every way
BUSY, ERR and ERRCODE change. -/

namespace Sys2Proof.Machine

/-! ## What a host step does -/

/-- The state in which the host performs the first statement of its program: the statement is taken off, and one host
step is counted against a pending command's draw (log 3). -/
abbrev State.fetched (s : State) (rest : List HostOp) : State := { s with program := rest, polls := s.polls - 1 }

theorem State.target_eq_reg {s : State} {a : BusAddr} {n : Nat} {r : Reg} (h : s.target a n = some (.reg r)) :
    a = regOffset r ∧ n = 4 := by
  unfold State.target at h
  split at h
  · split at h
    · next hn =>
      simp only [Option.map_eq_some_iff, Target.reg.injEq, exists_eq_right] at h
      exact ⟨(regOffset_of_regAt h).symm, hn⟩
    · cases h
  · split at h <;> cases h

/-- A write is a 32-bit write at a register's offset while BUSY = 0, or it leaves every register. -/
theorem State.busWrite_register_cases (s : State) (a : BusAddr) (n : Nat) (v : Word) :
    (s.busy = false ∧ n = 4 ∧ ∃ r, a = regOffset r ∧ s.busWrite a n v = s.writeReg r v) ∨
    (∃ f, s.busWrite a n v = s.recordFault f) ∨
    (∃ i b, s.busWrite a n v = s.setCanvasByte i b) := by
  cases hbusy : s.busy
  · cases ht : s.target a n with
    | none => exact .inr (.inl ⟨_, State.busWrite_of_target_none hbusy ht v⟩)
    | some target =>
      cases target with
      | reg r =>
        obtain ⟨rfl, rfl⟩ := State.target_eq_reg ht
        exact .inl ⟨rfl, rfl, r, rfl, s.busWrite_reg r v hbusy⟩
      | cell i => exact .inr (.inr ⟨i, _, State.busWrite_of_target_cell hbusy ht v⟩)
  · exact .inr (.inl ⟨_, s.busWrite_busy a n v hbusy⟩)

/-- A host step is the reset event, or a write of a register while BUSY = 0, or it leaves every register, the latch and
STATUS. -/
theorem hostStep_cases (s : State) :
    (∃ rest, s.program = .platformReset :: rest ∧ hostStep s = (s.fetched rest).resetEvent) ∨
    (∃ r v rest, s.busy = false ∧ s.program = .write (regOffset r) 4 v :: rest ∧
      hostStep s = (s.fetched rest).writeReg r v) ∨
    s.SameBlock { hostStep s with canvas := s.canvas } := by
  cases hp : s.program with
  | nil => exact .inr (.inr (by simp [hostStep, hp, State.SameBlock]))
  | cons op rest =>
    rw [hostStep_cons hp]
    rcases hostOp_cases op (s.fetched rest) with ⟨rfl, e⟩ | ⟨a, n, v, rfl, e⟩ | ⟨hblock, -, -⟩
    · exact .inl ⟨rest, rfl, e⟩
    · rw [e]
      rcases (s.fetched rest).busWrite_register_cases a n v with ⟨hidle, rfl, r, rfl, ew⟩ | ⟨f, ew⟩ | ⟨i, b, ew⟩
      · exact .inr (.inl ⟨r, v, rest, hidle, rfl, ew⟩)
      · exact .inr (.inr (by simp [ew, State.SameBlock]))
      · exact .inr (.inr (by simp [ew, State.SameBlock]))
    · simp only [State.SameBlock] at hblock ⊢
      exact .inr (.inr (by simp_all))

/-- While a command is pending a host step is the reset event, or leaves the whole block and counts one host step. -/
theorem hostStep_cases_of_busy {s : State} (hbusy : s.busy = true) :
    (∃ rest, s.program = .platformReset :: rest ∧ hostStep s = (s.fetched rest).resetEvent) ∨
    (s.SameBlock (hostStep s) ∧ (s.program ≠ [] → (hostStep s).polls = s.polls - 1)) := by
  cases hp : s.program with
  | nil => exact .inr (by simp [hostStep, hp, State.SameBlock])
  | cons op rest =>
    rw [hostStep_cons hp]
    rcases hostOp_cases op (s.fetched rest) with ⟨rfl, e⟩ | ⟨a, n, v, rfl, e⟩ | ⟨hblock, hpolls, -⟩
    · exact .inl ⟨rest, rfl, e⟩
    · rw [e, (s.fetched rest).busWrite_busy a n v hbusy]
      exact .inr (by simp [State.SameBlock])
    · exact .inr ⟨hblock, fun _ => hpolls⟩

/-! ## EVAL -/

/-- The two answers of EVAL: the intensity inside the canvas, BAD_COORD outside it. -/
theorem exec_eval_cases {s t : State} (h : exec .eval s = .next t) :
    (s.evalInCanvas = true ∧ t = { s with
      result := zext32 (evaluate s.patternParams s.draws s.evalX s.evalY)
      draws := s.draws + slotsPerPixel }.finish) ∨
    (s.evalInCanvas = false ∧ t = s.raiseCmdError .badCoord) := by
  simp only [exec, execEval] at h
  split at h <;> cases h
  · exact .inl ⟨‹_›, rfl⟩
  · exact .inr ⟨Bool.eq_false_iff.mpr ‹_›, rfl⟩

/-! ## The invariant -/

/-- The invariant reads the parameters, the canvas, the fault set, STATUS and the scan position only. -/
theorem State.Inv.congr {s t : State} (h : s.Inv) (hp : s.SameParameters t) (hc : t.canvas = s.canvas)
    (hf : faultsAbove 0 t.faults = true) (he : errConsistent t = true) (hs : t.scan = s.scan) : t.Inv := by
  obtain ⟨hdims, hwf, hwithin, -, -, hscan, hblock⟩ := h
  obtain ⟨hw, hh, hb⟩ := hp
  refine ⟨?_, ?_, ?_, hf, he, ?_, ?_⟩
  · rw [hw, hh]; exact hdims
  · rw [hc]; exact hwf
  · rw [State.cells, hw, hh, hc]; exact hwithin
  · rw [hs]; exact hscan
  · rw [hb]; exact hblock

theorem errConsistent_congr {s t : State} (h : errConsistent s = true) (he : t.err = s.err)
    (hc : t.errCode = s.errCode) : errConsistent t = true := by
  rw [errConsistent, he, hc]; exact h

theorem errConsistent_raiseCmdError (s : State) (e : CmdError) : errConsistent (s.raiseCmdError e) = true := by
  cases e <;> rfl

theorem State.Inv.raiseCmdError {s : State} (h : s.Inv) (e : CmdError) : (s.raiseCmdError e).Inv := by
  obtain ⟨hdims, hwf, hwithin, hfaults, -, hscan, hblock⟩ := h
  exact ⟨hdims, hwf, hwithin, hfaults, errConsistent_raiseCmdError s e, hscan, hblock⟩

theorem State.Inv.setCanvasBytes {s : State} (h : s.Inv) {bs : List Byte} (hbs : bs.length ≤ s.cells) :
    (s.setCanvasBytes bs).Inv := by
  obtain ⟨hdims, hwf, hwithin, hfaults, herr, hscan, hblock⟩ := h
  exact ⟨hdims, s.setCanvasBytes_wf bs hwf, s.setCanvasBytes_within s.cells bs hbs hwithin, hfaults,
    herr, hscan, hblock⟩

theorem State.Inv.fillCanvas {s : State} (h : s.Inv) : s.fillCanvas.Inv :=
  State.Inv.setCanvasBytes (s := { s with draws := s.draws + slotsPerPixel * s.cells }) h (fillBytes_length _ _).le

theorem State.Inv.ditherCanvas {s : State} (h : s.Inv) : s.ditherCanvas.Inv :=
  h.setCanvasBytes (by rw [ditherBytes_length, State.canvasBytes_length])

/-- Every command keeps the invariant: the canvas changes by lists of one byte per cell, STATUS by raising BAD_COORD. -/
theorem exec_keeps_inv {i : Instr} {s t : State} (h : s.Inv) (he : exec i s = .next t) : t.Inv := by
  cases i
  case eval =>
    rcases exec_eval_cases he with ⟨-, rfl⟩ | ⟨-, rfl⟩
    · exact h
    · exact h.raiseCmdError .badCoord
  case fill => cases he; exact h.fillCanvas
  case dither => cases he; exact h.ditherCanvas
  case render => cases he; exact h.fillCanvas.ditherCanvas
  all_goals cases he; exact h

theorem engineStep_keeps_inv {s t : State} (h : s.Inv) (he : engineStep s = .next t) : t.Inv := by
  rcases engineStep_cases he with ⟨i, -, hi⟩ | ⟨r, -, rfl⟩
  · exact exec_keeps_inv h hi
  · exact h.raiseCmdError .illegalCmd

theorem State.Inv.recordFault {s : State} (h : s.Inv) (f : FaultRecord) : (s.recordFault f).Inv := by
  obtain ⟨hdims, hwf, hwithin, hfaults, herr, hscan, hblock⟩ := h
  exact ⟨hdims, hwf, hwithin, s.recordFault_ordered f hfaults, herr, hscan, hblock⟩

theorem State.Inv.setCanvasByte {s : State} (h : s.Inv) {i : Nat} (hi : i < s.cells) (b : Byte) :
    (s.setCanvasByte i b).Inv := by
  obtain ⟨hdims, hwf, hwithin, hfaults, herr, hscan, hblock⟩ := h
  exact ⟨hdims, s.setCanvasByte_wf i b hwf, Memory.within_cellPut hwithin hi, hfaults, herr, hscan, hblock⟩

theorem State.Inv.writeReg {s : State} (h : s.Inv) (r : Reg) (v : Word) : (s.writeReg r v).Inv := by
  cases r
  case status =>
    obtain ⟨hdims, hwf, hwithin, hfaults, -, hscan, hblock⟩ := id h
    rcases s.writeStatus_cases v with e | e <;> rw [State.writeReg, e]
    · exact h
    · exact ⟨hdims, hwf, hwithin, hfaults, rfl, hscan, hblock⟩
  all_goals exact h

theorem State.Inv.busWrite {s : State} (h : s.Inv) (a : BusAddr) (n : Nat) (v : Word) : (s.busWrite a n v).Inv := by
  rcases s.busWrite_cases a n v with ⟨f, e⟩ | ⟨-, r, e⟩ | ⟨-, i, hi, e⟩ <;> rw [e]
  · exact h.recordFault f
  · exact h.writeReg r v
  · exact h.setCanvasByte hi _

theorem State.Inv.resetEvent {s : State} (h : s.Inv) : s.resetEvent.Inv := by
  obtain ⟨hdims, -, -, hfaults, -, -, hblock⟩ := h
  exact ⟨hdims, rfl, rfl, hfaults, rfl, rfl, hblock⟩

theorem hostOp_keeps_inv {s : State} (h : s.Inv) (op : HostOp) : (hostOp op s).Inv := by
  rcases hostOp_cases op s with ⟨-, e⟩ | ⟨a, n, v, -, e⟩ | ⟨hsame, -, hfaults⟩
  · rw [e]; exact h.resetEvent
  · rw [e]; exact h.busWrite a n v
  · obtain ⟨-, herr, hcode, -, -, -, -, -, -, -, -, -, -, hw, hh, hb, hcanvas, hscan, -⟩ := hsame
    obtain ⟨-, -, -, horder, hstatus, -, -⟩ := id h
    refine h.congr ⟨hw, hh, hb⟩ hcanvas ?_ (errConsistent_congr hstatus herr hcode) hscan
    rcases hfaults with e | ⟨f, e⟩ <;> rw [e]
    · exact horder
    · exact faultsAbove_faultInsert horder (Nat.zero_le _)

theorem hostStep_keeps_inv {s : State} (h : s.Inv) : (hostStep s).Inv := by
  cases hp : s.program with
  | nil => rw [hostStep, hp]; exact h
  | cons op rest => rw [hostStep_cons hp]; exact hostOp_keeps_inv (s := s.fetched rest) h op

/-! ## What each command leaves unchanged -/

theorem exec_same_parameter_registers {i : Instr} {s t : State} (h : exec i s = .next t) :
    t.cl = s.cl ∧ t.arg1 = s.arg1 ∧ t.arg2 = s.arg2 ∧ t.seed = s.seed ∧ t.kind = s.kind ∧ t.freq = s.freq ∧
      t.nscale = s.nscale ∧ t.invert = s.invert := by
  rcases exec_cases h with ⟨-, rfl⟩ | ⟨-, rfl⟩ | ⟨-, rfl⟩ | ⟨-, rfl⟩ | ⟨-, -, rfl⟩ | ⟨-, -, rfl⟩ | ⟨-, rfl⟩ |
    ⟨-, rfl⟩ | ⟨-, rfl⟩ <;> exact ⟨rfl, rfl, rfl, rfl, rfl, rfl, rfl, rfl⟩

theorem exec_same_host {i : Instr} {s t : State} (h : exec i s = .next t) :
    t.scan = s.scan ∧ t.resets = s.resets ∧ t.polls = s.polls ∧ s.SameHost t := by
  rcases exec_cases h with ⟨-, rfl⟩ | ⟨-, rfl⟩ | ⟨-, rfl⟩ | ⟨-, rfl⟩ | ⟨-, -, rfl⟩ | ⟨-, -, rfl⟩ | ⟨-, rfl⟩ |
    ⟨-, rfl⟩ | ⟨-, rfl⟩ <;> exact ⟨rfl, rfl, rfl, rfl, rfl, rfl, rfl, rfl⟩

theorem exec_busy {i : Instr} {s t : State} (h : exec i s = .next t) : t.busy = false := by
  rcases exec_cases h with ⟨-, rfl⟩ | ⟨-, rfl⟩ | ⟨-, rfl⟩ | ⟨-, rfl⟩ | ⟨-, -, rfl⟩ | ⟨-, -, rfl⟩ | ⟨-, rfl⟩ |
    ⟨-, rfl⟩ | ⟨-, rfl⟩ <;> rfl

section Frame
variable {i : Instr} {s t : State} (h : exec i s = .next t)
include h

theorem exec_arg0 (hi : i ≠ .prng) : t.arg0 = s.arg0 := by
  cases i
  case prng => exact absurd rfl hi
  case eval => rcases exec_eval_cases h with ⟨-, rfl⟩ | ⟨-, rfl⟩ <;> rfl
  all_goals cases h; rfl

theorem exec_result (hi : i ∉ [Instr.prng, .noise, .sine, .eval]) : t.result = s.result := by
  cases i
  case nop | fill | dither | render => cases h; rfl
  all_goals exact absurd (by decide) hi

theorem exec_err (hi : i ≠ .eval) : t.err = s.err ∧ t.errCode = s.errCode := by
  cases i
  case eval => exact absurd rfl hi
  all_goals cases h; exact ⟨rfl, rfl⟩

theorem exec_draws (hi : i ∉ [Instr.eval, .fill, .render]) : t.draws = s.draws := by
  cases i
  case eval | fill | render => exact absurd (by decide) hi
  all_goals cases h; rfl

theorem exec_canvas (hi : i ∉ [Instr.fill, .dither, .render]) : t.canvas = s.canvas := by
  cases i
  case fill | dither | render => exact absurd (by decide) hi
  case eval => rcases exec_eval_cases h with ⟨-, rfl⟩ | ⟨-, rfl⟩ <;> rfl
  all_goals cases h; rfl

theorem exec_canvasByte (hi : i ∉ [Instr.fill, .dither, .render]) (j : Nat) : t.canvasByte j = s.canvasByte j := by
  obtain ⟨-, hresets, -⟩ := exec_same_host h
  exact s.canvasByte_congr t (exec_canvas h hi) hresets j

theorem exec_canvasByte_outside {j : Nat} (hj : s.width * s.height ≤ j) : t.canvasByte j = s.canvasByte j := by
  cases i
  case fill => cases h; exact State.fillCanvas_canvasByte_outside hj
  case dither => cases h; exact State.ditherCanvas_canvasByte_outside hj
  case render =>
    cases h
    exact (State.ditherCanvas_canvasByte_outside (s := s.fillCanvas) hj).trans (State.fillCanvas_canvasByte_outside hj)
  all_goals exact exec_canvasByte h (by decide) j

end Frame

/-! ## ERR and ERRCODE (10_state.md R24, R25) -/

/-- A command leaves ERR and ERRCODE, or it is EVAL outside the canvas and raises BAD_COORD. -/
theorem exec_err_cases {i : Instr} {s t : State} (h : exec i s = .next t) :
    (t.err = s.err ∧ t.errCode = s.errCode) ∨
      (i = .eval ∧ s.evalInCanvas = false ∧ t = s.raiseCmdError .badCoord) := by
  by_cases hi : i = .eval
  · subst hi
    rcases exec_eval_cases h with ⟨-, rfl⟩ | hbad
    · exact .inl ⟨rfl, rfl⟩
    · exact .inr ⟨rfl, hbad⟩
  · exact .inl (exec_err h hi)

theorem errCodeOf_mem (e : CmdError) : errCodeOf e = 0x1#4 ∨ errCodeOf e = 0x2#4 := by
  cases e
  · exact .inl rfl
  · exact .inr rfl

theorem engineStep_err_cases {s t : State} (h : engineStep s = .next t) :
    (t.err = s.err ∧ t.errCode = s.errCode) ∨ (t.err = true ∧ (t.errCode = 0x1#4 ∨ t.errCode = 0x2#4)) := by
  rcases engineStep_cases h with ⟨i, -, hi⟩ | ⟨r, -, rfl⟩
  · rcases exec_err_cases hi with hsame | ⟨-, -, rfl⟩
    · exact .inl hsame
    · exact .inr ⟨rfl, errCodeOf_mem .badCoord⟩
  · exact .inr ⟨rfl, errCodeOf_mem .illegalCmd⟩

theorem State.writeReg_status_clears (s : State) {v : Word} (hbit : v.getLsbD 1 = true) :
    s.writeReg .status v = { s with err := false, errCode := 0#4 } := if_pos hbit

theorem State.writeReg_status_keeps (s : State) {v : Word} (hbit : v.getLsbD 1 = false) : s.writeReg .status v = s :=
  if_neg (Bool.eq_false_iff.mp hbit)

theorem State.writeReg_err (s : State) (v : Word) {r : Reg} (hr : r ≠ .status) :
    (s.writeReg r v).err = s.err ∧ (s.writeReg r v).errCode = s.errCode := by
  cases r
  case status => exact absurd rfl hr
  all_goals exact ⟨rfl, rfl⟩

/-- A host step leaves ERR and ERRCODE, or it clears both: by a STATUS write with bit 1 = 1 while BUSY = 0, or by the
reset event. -/
theorem hostStep_err_cases (s : State) :
    ((hostStep s).err = s.err ∧ (hostStep s).errCode = s.errCode) ∨
    ((hostStep s).err = false ∧ (hostStep s).errCode = 0x0#4 ∧
      ∃ rest, (∃ v : Word, v.getLsbD 1 = true ∧ s.busy = false ∧ s.program = .write 0x000004#24 4 v :: rest) ∨
        s.program = .platformReset :: rest) := by
  rcases hostStep_cases s with ⟨rest, hp, e⟩ | ⟨r, v, rest, hidle, hp, e⟩ | ⟨-, herr, hcode, -⟩
  · rw [e]; exact .inr ⟨rfl, rfl, rest, .inr hp⟩
  · rw [e]
    by_cases hr : r = .status
    · subst hr
      cases hbit : v.getLsbD 1
      · rw [State.writeReg_status_keeps _ hbit]; exact .inl ⟨rfl, rfl⟩
      · rw [State.writeReg_status_clears _ hbit]; exact .inr ⟨rfl, rfl, rest, .inl ⟨v, hbit, hidle, hp⟩⟩
    · exact .inl ((s.fetched rest).writeReg_err v hr)
  · exact .inl ⟨herr, hcode⟩

/-! ## BUSY (10_state.md R23) -/

/-- A host step leaves BUSY, or sets it by a write of CMD, or clears it by the reset event. -/
theorem hostStep_busy_cases (s : State) :
    (hostStep s).busy = s.busy ∨
    (∃ v rest, s.program = .write 0x000008#24 4 v :: rest ∧ (hostStep s).busy = true ∧ (hostStep s).cl = v) ∨
    ((∃ rest, s.program = .platformReset :: rest) ∧ (hostStep s).busy = false) := by
  rcases hostStep_cases s with ⟨rest, hp, e⟩ | ⟨r, v, rest, hidle, hp, e⟩ | ⟨hbusy, -⟩
  · rw [e]; exact .inr (.inr ⟨⟨rest, hp⟩, rfl⟩)
  · rw [e]
    by_cases hr : r = .cmd
    · subst hr; exact .inr (.inl ⟨v, rest, hp, rfl, rfl⟩)
    · obtain ⟨hbusy, -⟩ := (s.fetched rest).writeReg_frame v hr
      exact .inl hbusy
  · exact .inl hbusy

/-! ## Progress (70_reset_and_hazards.md R318) -/

/-- A host step before a pending command either counts against its draw or abandons it. -/
theorem pending_step_cases {s : State} (hbusy : s.busy = true) (hturn : s.engineTurn = false) :
    (hostStep s).busy = false ∨ ((hostStep s).busy = true ∧ (hostStep s).polls + 1 = s.polls) := by
  have hwait : ¬(s.polls = 0 ∨ s.program = []) := fun h =>
    Bool.false_ne_true (hturn.symm.trans (s.engineTurn_iff.mpr ⟨hbusy, h⟩))
  push Not at hwait
  obtain ⟨hpolls, hprogram⟩ := hwait
  rcases hostStep_cases_of_busy hbusy with ⟨rest, -, e⟩ | ⟨⟨hsame, -⟩, hcount⟩
  · exact .inl (by rw [e]; rfl)
  · exact .inr ⟨hsame.trans hbusy, by rw [hcount hprogram]; omega⟩

theorem run_pending (n : Nat) {s : State} (hpolls : s.polls = n) (hbusy : s.busy = true) :
    ∃ k t, k ≤ n + 1 ∧ Host.Core.run Sys2Proof.core k s = .next t ∧ t.busy = false := by
  induction n generalizing s with
  | zero =>
    obtain ⟨t, ht⟩ := engineStep_isNext s
    have hturn := s.engineTurn_iff.mpr ⟨hbusy, .inl hpolls⟩
    exact ⟨1, t, le_rfl, run_next ((step_engine hturn).trans ht) 0, engineStep_busy ht⟩
  | succ n ih =>
    cases hturn : s.engineTurn
    · rcases pending_step_cases hbusy hturn with hdone | ⟨hstill, hcount⟩
      · exact ⟨1, _, by omega, run_next (step_host hturn) 0, hdone⟩
      · obtain ⟨k, t, hk, hrun, hdone⟩ := ih (by omega) hstill
        exact ⟨k + 1, t, by omega, (run_next (step_host hturn) k).trans hrun, hdone⟩
    · obtain ⟨t, ht⟩ := engineStep_isNext s
      exact ⟨1, t, by omega, run_next ((step_engine hturn).trans ht) 0, engineStep_busy ht⟩

/-! ## The statements -/

/-- Settles O3: at reset the canvas and the fault set are empty, and the limits are the hypotheses. -/
theorem invariantHoldsAtReset : Obligations.InvariantHoldsAtReset := by
  unfold Obligations.InvariantHoldsAtReset
  have hlegal : ∀ (w h : Nat) (b : BlockParameters), dimsOk w h = true → b.ok = true → (State.resetOf w h b).Inv :=
    fun w h b hdims hblock => ⟨hdims, rfl, rfl, rfl, rfl, rfl, hblock⟩
  exact ⟨hlegal _ _ _ (by decide) BlockParameters.default_ok, hlegal⟩

/-- Settles O4: the engine's step keeps the invariant by the cases of the eight commands, the host's by the cases of its
statement. -/
theorem everyStepKeepsTheInvariant : Obligations.EveryStepKeepsTheInvariant := by
  unfold Obligations.EveryStepKeepsTheInvariant
  intro s t hinv h
  rcases step_cases h with ⟨-, he⟩ | ⟨-, rfl⟩
  · exact engineStep_keeps_inv hinv he
  · exact hostStep_keeps_inv hinv

/-- Settles O9: whose turn it is decides the step, and the engine's step is `exec` of the decoded command. -/
theorem engineStepRunsTheDecodedCommand : Obligations.EngineStepRunsTheDecodedCommand := by
  unfold Obligations.EngineStepRunsTheDecodedCommand
  refine ⟨fun s i hbusy hfirst hi => ?_, fun s hidle => step_host (engineTurn_of_idle hidle),
    fun s _ hpolls hprogram => step_host ?_⟩
  · rw [step_engine (s.engineTurn_iff.mpr ⟨hbusy, hfirst⟩)]
    exact engineStep_of_decode hi
  · refine Bool.eq_false_iff.mpr fun hturn => ?_
    obtain ⟨-, hfirst⟩ := s.engineTurn_iff.mp hturn
    exact hfirst.elim hpolls hprogram

/-- Settles O10, by induction on the draw: each host step lowers it or is the reset, and at 0 the engine moves. -/
theorem pendingCommandCompletes : Obligations.PendingCommandCompletes := by
  unfold Obligations.PendingCommandCompletes
  exact fun s hbusy => run_pending s.polls rfl hbusy

/-- Settles O41, from the frame of each field over the eight commands. -/
theorem commandsLeaveEverythingElseUnchanged : Obligations.CommandsLeaveEverythingElseUnchanged := by
  unfold Obligations.CommandsLeaveEverythingElseUnchanged
  intro i s t h
  obtain ⟨hcl, harg1, harg2, hseed, hkind, hfreq, hnscale, hinvert⟩ := exec_same_parameter_registers h
  obtain ⟨⟨hwidth, hheight, hblock⟩, hfaults⟩ := exec_parameters_faults h
  obtain ⟨hscan, hresets, hpolls, hhost⟩ := exec_same_host h
  exact ⟨exec_busy h, hcl, harg1, harg2, hseed, hkind, hfreq, hnscale, hinvert, hwidth, hheight, hblock, hscan, hfaults,
    hresets, hpolls, hhost, exec_arg0 h, exec_result h, exec_err h, exec_draws h, exec_canvasByte h,
    fun _ hj => exec_canvasByte_outside h hj⟩

/-- Settles O43: the engine's step and the host's each have two cases for ERR and ERRCODE, and a STATUS write is one of
the host's. -/
theorem errIsSetByErrorsAndClearedByTheHost : Obligations.ErrIsSetByErrorsAndClearedByTheHost := by
  unfold Obligations.ErrIsSetByErrorsAndClearedByTheHost
  refine ⟨fun s e => ⟨rfl, fun he => by rw [he]; rfl, fun he => by rw [he]; rfl⟩, fun s v hbit => ?written,
    fun s v hbit => s.writeReg_status_keeps hbit, fun s t h => engineStep_err_cases h,
    fun s t i hi hinside h => ?succeeds, fun s t h => ?codes, fun s t h hturn hchange => ?host,
    fun s t h herr hclear => ?cleared, rfl, rfl⟩
  case written =>
    rw [s.writeReg_status_clears hbit]; exact ⟨rfl, rfl⟩
  case succeeds =>
    rcases exec_err_cases ((engineStep_of_decode hi).symm.trans h) with hsame | ⟨heval, houtside, -⟩
    · exact hsame
    · exact absurd (s.evalInCanvas_iff.mpr (hinside heval)) (Bool.eq_false_iff.mp houtside)
  case codes =>
    simp only [List.mem_cons, List.not_mem_nil, or_false]
    rcases step_cases h with ⟨-, he⟩ | ⟨-, rfl⟩
    · rcases engineStep_err_cases he with ⟨-, hcode⟩ | ⟨-, hcode⟩
      · exact .inl hcode
      · exact .inr (.inr hcode)
    · rcases hostStep_err_cases s with ⟨-, hcode⟩ | ⟨-, hcode, -⟩
      · exact .inl hcode
      · exact .inr (.inl hcode)
  case host =>
    obtain rfl := Host.Outcome.next.inj (h.symm.trans (step_host hturn))
    rcases hostStep_err_cases s with ⟨herr, hcode⟩ | hclears
    · exact absurd hchange (by simp [herr, hcode])
    · exact hclears
  case cleared =>
    rcases step_cases h with ⟨-, he⟩ | ⟨hturn, -⟩
    · rcases engineStep_err_cases he with ⟨hsame, -⟩ | ⟨hset, -⟩
      · exact absurd (hclear.symm.trans (hsame.trans herr)) Bool.false_ne_true
      · exact absurd (hclear.symm.trans hset) Bool.false_ne_true
    · exact hturn

/-- Settles O44, from the three cases of a host step for BUSY and the engine's step, after which none is pending. -/
theorem busyFromTheCmdWriteToTheEngineStep : Obligations.BusyFromTheCmdWriteToTheEngineStep := by
  unfold Obligations.BusyFromTheCmdWriteToTheEngineStep
  refine ⟨fun s v => ⟨rfl, ?_⟩, fun s t h hturn => engineStep_busy ((step_engine hturn).symm.trans h),
    fun s t h hbusy hturn hclear => ?cleared, fun s t h hidle hset => ?set, rfl⟩
  · obtain ⟨hbusy, -⟩ := s.writeReg_frame v (r := .status) (by decide)
    exact hbusy
  case cleared =>
    obtain rfl := Host.Outcome.next.inj (h.symm.trans (step_host hturn))
    rcases hostStep_busy_cases s with hsame | ⟨v, rest, -, hset, -⟩ | ⟨hreset, -⟩
    · exact absurd (hclear.symm.trans (hsame.trans hbusy)) Bool.false_ne_true
    · exact absurd (hclear.symm.trans hset) Bool.false_ne_true
    · exact hreset
  case set =>
    obtain rfl := Host.Outcome.next.inj (h.symm.trans (step_host (engineTurn_of_idle hidle)))
    rcases hostStep_busy_cases s with hsame | ⟨v, rest, hp, -, hcl⟩ | ⟨-, hclear⟩
    · exact absurd (hidle.symm.trans (hsame.symm.trans hset)) Bool.false_ne_true
    · exact ⟨v, rest, hp, hcl⟩
    · exact absurd (hclear.symm.trans hset) Bool.false_ne_true

/-- Settles O49: while a command is pending the hazard rule turns every write of the host into a record. -/
theorem pendingCommandIsShieldedFromTheHost : Obligations.PendingCommandIsShieldedFromTheHost := by
  unfold Obligations.PendingCommandIsShieldedFromTheHost
  intro s t hbusy hturn h
  obtain rfl := Host.Outcome.next.inj (h.symm.trans (step_host hturn))
  rcases hostStep_cases_of_busy hbusy with ⟨rest, hp, -⟩ | ⟨hsame, -⟩
  · exact .inl ⟨rest, hp⟩
  · exact .inr hsame

end Sys2Proof.Machine
end

section
/-! PROOFS. Three properties the rules derive: decoding and encoding agree on byte lists, xorshift32 is a bijection, and a
dithered canvas is binary, stable and determined by its bytes. -/

namespace Sys2Proof

/-! ## The four lanes of a word (20_memory.md R64) -/

theorem append_byte_toNat {n : Nat} (hi : BitVec n) (lo : BitVec 8) :
    (hi ++ lo).toNat = hi.toNat * 2 ^ 8 + lo.toNat := by
  rw [BitVec.toNat_append, ← Nat.shiftLeft_add_eq_or_of_lt lo.isLt, Nat.shiftLeft_eq]

theorem wordOfLanes_toNat (b0 b1 b2 b3 : BitVec 8) :
    (wordOfLanes b0 b1 b2 b3).toNat = b0.toNat + 2 ^ 8 * b1.toNat + 2 ^ 16 * b2.toNat + 2 ^ 24 * b3.toNat := by
  simp only [wordOfLanes, append_byte_toNat]
  omega

theorem laneOf_toNat (w : Word) (k : Nat) : (laneOf w k).toNat = w.toNat / 2 ^ (8 * k) % 256 := by
  simp [laneOf, BitVec.extractLsb'_toNat, Nat.shiftRight_eq_div_pow]

theorem lanesOf_wordOfLanes (b0 b1 b2 b3 : BitVec 8) :
    [laneOf (wordOfLanes b0 b1 b2 b3) 0, laneOf (wordOfLanes b0 b1 b2 b3) 1, laneOf (wordOfLanes b0 b1 b2 b3) 2,
      laneOf (wordOfLanes b0 b1 b2 b3) 3] = [b0, b1, b2, b3] := by
  have h0 := b0.isLt
  have h1 := b1.isLt
  have h2 := b2.isLt
  have h3 := b3.isLt
  simp only [List.cons.injEq, and_true, BitVec.toNat_eq, laneOf_toNat, wordOfLanes_toNat]
  omega

theorem wordOfLanes_lanesOf (w : Word) : wordOfLanes (laneOf w 0) (laneOf w 1) (laneOf w 2) (laneOf w 3) = w := by
  have hw := w.isLt
  apply BitVec.eq_of_toNat_eq
  simp only [wordOfLanes_toNat, laneOf_toNat]
  omega

/-! ## Byte lists -/

theorem decodeBytes_encodeBytes_append (i : Instr) (rest : List (BitVec 8)) :
    decodeBytes (encodeBytes i ++ rest) = .ok (i, rest) := by
  simp [encodeBytes, decodeBytes, wordOfLanes_lanesOf, decode_encode]

theorem eq_encodeBytes_append_of_decodeBytes {bs rest : List (BitVec 8)} {i : Instr}
    (h : decodeBytes bs = .ok (i, rest)) : bs = encodeBytes i ++ rest := by
  unfold decodeBytes at h
  split at h
  · next b0 b1 b2 b3 tail =>
    split at h
    · next j hj =>
      cases h
      rw [encodeBytes, ← (decode_eq_ok_iff_encode _ _).mp hj, lanesOf_wordOfLanes]
      rfl
    · cases h
  · cases h

/-- Settles O6: the four lanes and the word determine each other, and so do the word and the command. -/
theorem decodeBytesIffEncodeBytes : Obligations.DecodeBytesIffEncodeBytes := by
  unfold Obligations.DecodeBytesIffEncodeBytes
  refine fun bs rest i => ⟨eq_encodeBytes_append_of_decodeBytes, ?_⟩
  rintro rfl
  exact decodeBytes_encodeBytes_append i rest

end Sys2Proof

namespace Sys2Proof.Machine

/-! ## xorshift32 (40_primitives.md R121) -/

/-- A word that equals itself shifted left has no lowest set bit. -/
theorem eq_zero_of_eq_shiftLeft {d : Word} {k : Nat} (hk : 0 < k) (h : d = d <<< k) : d = 0#32 := by
  apply BitVec.eq_of_getLsbD_eq
  intro i hi
  rw [BitVec.getLsbD_zero]
  induction i using Nat.strong_induction_on with
  | _ i ih =>
    rw [h, BitVec.getLsbD_shiftLeft]
    by_cases hik : i < k
    · simp [hik]
    · rw [ih (i - k) (by omega) (by omega), Bool.and_false]

/-- A word that equals itself shifted right is no greater than its quotient by 2^k. -/
theorem eq_zero_of_eq_shiftRight {d : Word} {k : Nat} (hk : 0 < k) (h : d = d >>> k) : d = 0#32 := by
  by_contra hd
  have hpos : 0 < d.toNat := Nat.pos_of_ne_zero fun hz => hd (BitVec.eq_of_toNat_eq hz)
  have hlt := Nat.div_lt_self hpos (Nat.one_lt_two_pow hk.ne')
  rw [← Nat.shiftRight_eq_div_pow, ← BitVec.toNat_ushiftRight, ← h] at hlt
  exact lt_irrefl _ hlt

/-- Where two words have the same sum with their images, their difference is the difference of the images. -/
theorem xor_eq_xor_of_xor_eq {a b c d : Word} (h : a ^^^ b = c ^^^ d) : a ^^^ c = b ^^^ d := by
  calc a ^^^ c
    _ = a ^^^ b ^^^ (b ^^^ c) := by rw [BitVec.xor_assoc, ← BitVec.xor_assoc b b c, BitVec.xor_self, BitVec.zero_xor]
    _ = b ^^^ d := by
      rw [h, BitVec.xor_comm b c, ← BitVec.xor_assoc, BitVec.xor_comm c d, BitVec.xor_assoc d, BitVec.xor_self,
        BitVec.xor_zero, BitVec.xor_comm]

theorem xor_shiftLeft_injective {k : Nat} (hk : 0 < k) : Function.Injective fun x : Word => x ^^^ (x <<< k) := by
  intro x y h
  have hd := xor_eq_xor_of_xor_eq h
  rw [← BitVec.shiftLeft_xor_distrib] at hd
  exact BitVec.xor_eq_zero_iff.mp (eq_zero_of_eq_shiftLeft hk hd)

theorem xor_shiftRight_injective {k : Nat} (hk : 0 < k) : Function.Injective fun x : Word => x ^^^ (x >>> k) := by
  intro x y h
  have hd := xor_eq_xor_of_xor_eq h
  rw [← BitVec.ushiftRight_xor_distrib] at hd
  exact BitVec.xor_eq_zero_iff.mp (eq_zero_of_eq_shiftRight hk hd)

theorem xorshift32_injective : Function.Injective xorshift32 :=
  (xor_shiftLeft_injective (k := 5) (by decide)).comp
    ((xor_shiftRight_injective (k := 17) (by decide)).comp (xor_shiftLeft_injective (k := 13) (by decide)))

theorem xorshift32_zero : xorshift32 0#32 = 0#32 := by decide

/-- Settles O13: each of the three steps is injective, and an injection of the finitely many words is a bijection. -/
theorem xorshiftIsBijective : Obligations.XorshiftIsBijective := by
  unfold Obligations.XorshiftIsBijective
  refine ⟨Finite.injective_iff_bijective.mp xorshift32_injective, xorshift32_zero, fun s hs h => hs ?_⟩
  exact xorshift32_injective (h.trans xorshift32_zero.symm)

/-! ## The dithered canvas (42_dither.md R220-R226) -/

theorem ditherNew_binary (b : Byte) : ditherNew b = 0#8 ∨ ditherNew b = 255#8 := by
  unfold ditherNew
  split
  · exact .inr rfl
  · exact .inl rfl

theorem ditherNew_of_binary {b : Byte} (h : b = 0#8 ∨ b = 255#8) : ditherNew b = b := by
  rcases h with rfl | rfl <;> rfl

theorem ditherErr_bounds (b : Byte) : -127 ≤ ditherErr b ∧ ditherErr b ≤ 127 := by
  have hlo := byteInt_nonneg b
  have hhi := byteInt_le b
  rw [ditherErr, byteInt_ditherNew]
  split <;> omega

theorem State.ditherCanvas_binary {s : State} {i : Nat} (hi : i < s.width * s.height) :
    s.ditherCanvas.canvasByte i = 0#8 ∨ s.ditherCanvas.canvasByte i = 255#8 := by
  rw [State.ditherCanvas_canvasByte_inside hi, ditherBytes_getD s.canvasBytes_length hi]
  exact ditherNew_binary _

theorem State.canvasBytes_congr {s u : State} (hw : s.width = u.width) (hh : s.height = u.height)
    (h : ∀ i, i < s.width * s.height → s.canvasByte i = u.canvasByte i) : s.canvasBytes = u.canvasBytes := by
  have hcells : s.cells = u.cells := by rw [State.cells, State.cells, hw, hh]
  rw [State.canvasBytes, State.canvasBytes, ← hcells]
  exact List.map_congr_left fun i hi => h i (List.mem_range.mp hi)

/-- Inside the canvas `dither()` answers a function of the canvas size and bytes. -/
theorem State.ditherCanvas_canvasByte_congr {s u : State} (hw : s.width = u.width) (hh : s.height = u.height)
    (h : s.canvasBytes = u.canvasBytes) {i : Nat} (hi : i < s.width * s.height) :
    s.ditherCanvas.canvasByte i = u.ditherCanvas.canvasByte i := by
  rw [State.ditherCanvas_canvasByte_inside hi, State.ditherCanvas_canvasByte_inside (by rwa [← hw, ← hh]), h, hw, hh]

/-- The bytes FILL writes do not depend on the canvas before it. -/
theorem State.fillCanvas_canvasBytes_congr (s : State) (m : Memory) (r : Nat) :
    { s with canvas := m, resets := r }.fillCanvas.canvasBytes = s.fillCanvas.canvasBytes := by
  rw [State.fillCanvas_canvasBytes, State.fillCanvas_canvasBytes]
  rfl

theorem State.render_canvasByte_congr (s : State) (m : Memory) (r : Nat) {i : Nat} (hi : i < s.width * s.height) :
    { s with canvas := m, resets := r }.fillCanvas.ditherCanvas.canvasByte i =
      s.fillCanvas.ditherCanvas.canvasByte i := by
  refine State.ditherCanvas_canvasByte_congr ?_ ?_ (s.fillCanvas_canvasBytes_congr m r) ?_
  · rw [State.fillCanvas_width, State.fillCanvas_width]
  · rw [State.fillCanvas_height, State.fillCanvas_height]
  · rw [State.fillCanvas_width, State.fillCanvas_height]; exact hi

/-- Settles O39: every byte of a dithered canvas is a threshold, a threshold's own error is 0, and the ditherer and FILL
read nothing else. -/
theorem ditheredCanvasIsBinaryStableAndDetermined : Obligations.DitheredCanvasIsBinaryStableAndDetermined := by
  unfold Obligations.DitheredCanvasIsBinaryStableAndDetermined
  refine ⟨fun i s t hi h j hj => ?binary, fun s hbinary => ⟨_, exec_dither s, fun i => ?stable⟩,
    fun s u hw hh hbytes => ⟨_, _, exec_dither s, exec_dither u, fun i hi => ?bytes⟩,
    fun s m r t u ht hu i hi => ?render,
    ditherErr_bounds⟩
  case binary =>
    simp only [List.mem_cons, List.not_mem_nil, or_false] at hi
    rcases hi with rfl | rfl <;> cases h
    · exact State.ditherCanvas_binary hj
    · exact State.ditherCanvas_binary (s := s.fillCanvas) hj
  case stable =>
    exact State.ditherCanvas_canvasByte_of_fixed (fun k hk => ditherNew_of_binary (hbinary k hk)) i
  case bytes =>
    exact State.ditherCanvas_canvasByte_congr hw hh (State.canvasBytes_congr hw hh hbytes) hi
  case render =>
    cases ht
    cases hu
    rw [State.finish_canvasByte, State.finish_canvasByte]
    exact s.render_canvasByte_congr m r hi

end Sys2Proof.Machine
end

section
/-! PROOFS. The host's procedures run on the block (49_host_animator.md): the tick's count, randomize, startup, the
display and the mutation. -/

namespace Sys2Proof.Machine

/-! ## Reaching a state in finitely many steps -/

abbrev State.Reaches (s t : State) : Prop := ∃ k, Host.Core.run Sys2Proof.core k s = .next t

theorem State.Reaches.refl (s : State) : s.Reaches s := ⟨0, rfl⟩

theorem reaches_of_step {s t : State} (h : step s = .next t) : s.Reaches t := ⟨1, run_next h 0⟩

theorem State.Reaches.trans {s t u : State} (hst : s.Reaches t) (htu : t.Reaches u) : s.Reaches u := by
  obtain ⟨j, hj⟩ := hst
  obtain ⟨k, hk⟩ := htu
  exact ⟨j + k, (run_append hj k).trans hk⟩

/-- A step, then the rest of the run. -/
theorem State.Reaches.head {s t u : State} (h : step s = .next t) (htu : t.Reaches u) : s.Reaches u :=
  (reaches_of_step h).trans htu

/-! ## The count of a tick (R253) -/

theorem hostCalc_countFrame_frameCount (free : Word) (s : State) :
    (hostCalc .countFrame free s).frameCount = s.frameCount + 1#32 := by
  simp only [hostCalc]; split <;> rfl

theorem hostCalc_countFrame_program (free : Word) (s : State) : (hostCalc .countFrame free s).program =
    if mutationDue (s.frameCount + 1#32) free then .call .mutate :: s.program else s.program := by
  simp only [hostCalc]; split <;> rfl

/-- Where the count has not wrapped to 0, no free bit enters. -/
theorem mutationDue_iff {n : Word} (hn : n ≠ 0) (free : Word) : mutationDue n free = true ↔ n.toNat % 30 = 0 := by
  rw [mutationDue, if_neg hn, beq_iff_eq]

/-! ## Randomize and startup -/

/-- Four steps: the call, which reads the time, and the writes of SEED, KIND and FREQ. -/
theorem run_randomize {s : State} {rest : List HostOp} (hidle : s.busy = false)
    (hp : s.program = .call .randomize :: rest) :
    Host.Core.run Sys2Proof.core 4 s = .next { s with
      seed := Config.freeWord s.draws
      kind := kindPlus (Config.freeWord s.draws) 0
      freq := frequencyOf (Config.freeWord s.draws)
      program := rest
      polls := s.polls - 4
      draws := s.draws + 1 } :=
  calc Host.Core.run Sys2Proof.core 4 s
    _ = _ := run_next (step_call_of_idle hidle hp) 3
    _ = _ := run_next (step_opWr_of_idle (by exact hidle) rfl) 2
    _ = _ := run_next (step_opWr_of_idle (by exact hidle) rfl) 1
    _ = _ := run_next (step_opWr_of_idle (by exact hidle) rfl) 0

/-- Three steps: the call, which reads the time, the write of SEED and the clearing of the count. -/
theorem run_startup {s : State} {rest : List HostOp} (hidle : s.busy = false)
    (hp : s.program = .call .startup :: rest) :
    Host.Core.run Sys2Proof.core 3 s = .next { s with
      seed := Config.freeWord s.draws
      frameCount := 0#32
      program := rest
      polls := s.polls - 3
      draws := s.draws + 2 } :=
  calc Host.Core.run Sys2Proof.core 3 s
    _ = _ := run_next (step_call_of_idle hidle hp) 2
    _ = _ := run_next (step_opWr_of_idle (by exact hidle) rfl) 1
    _ = _ := run_next (step_op_of_idle (by exact hidle) rfl) 0

/-! ## The display -/

theorem zext32_setWidth (b : Byte) : (zext32 b).setWidth 8 = b :=
  BitVec.setWidth_setWidth_of_le b (by decide)

/-- The state after canvas byte `i` has been displayed. -/
def State.shown (s : State) (i : Nat) (rest : List HostOp) : State :=
  { s with
    program := .showFrom (i + 1) :: rest
    polls := s.polls - 3
    draws := s.draws + 1
    received := some (zext32 (s.canvasByte i)) :: s.received
    screen := s.screen ++ [s.canvasByte i == displayOnValue] }

section Display
variable {s : State} {rest : List HostOp} {i : Nat} (hidle : s.busy = false) (hcells : s.cells ≤ 2 ^ 20)
include hidle

/-- Past the last byte the display has nothing left to read. -/
theorem step_showFrom_end (hi : s.cells ≤ i) (hp : s.program = .showFrom i :: rest) :
    step s = .next (s.fetched rest) := by
  rw [step_op_of_idle hidle hp]
  exact congrArg Host.Outcome.next (if_neg (Nat.not_lt.mpr hi))

theorem step_showFrom (hi : i < s.cells) (hp : s.program = .showFrom i :: rest) :
    step s = .next (s.fetched (opRdb i :: .compute .showLast :: .showFrom (i + 1) :: rest)) := by
  rw [step_op_of_idle hidle hp]
  exact congrArg Host.Outcome.next (if_pos hi)

theorem step_showLast_of_idle {b : Byte} {reads : List (Option Word)} (hp : s.program = .compute .showLast :: rest)
    (hreads : s.received = some (zext32 b) :: reads) :
    step s = .next { s with
      program := rest
      polls := s.polls - 1
      draws := s.draws + 1
      screen := s.screen ++ [b == displayOnValue] } := by
  rw [step_op_of_idle hidle hp]
  simp [hostOp, hostCalc, State.lastRead, hreads, State.nextSlot, zext32_setWidth]

include hcells

theorem step_opRdb_of_idle (hi : i < s.cells) (hp : s.program = opRdb i :: rest) :
    step s = .next { s with
      program := rest
      polls := s.polls - 1
      received := some (zext32 (s.canvasByte i)) :: s.received } := by
  rw [step_op_of_idle hidle hp, opRdb, hostOp, State.busRead_cell (s.fetched rest) hidle hi hcells]
  rfl

/-- One canvas byte is displayed in three steps. -/
theorem run_showFrom (hi : i < s.cells) (hp : s.program = .showFrom i :: rest) :
    Host.Core.run Sys2Proof.core 3 s = .next (s.shown i rest) :=
  calc Host.Core.run Sys2Proof.core 3 s
    _ = _ := run_next (step_showFrom hidle hi hp) 2
    _ = _ := run_next (step_opRdb_of_idle (by exact hidle) (by exact hcells) (by exact hi) rfl) 1
    _ = _ := run_next (step_showLast_of_idle (by exact hidle) rfl rfl) 0

end Display

/-- The display from byte `i` on, by induction on the number of bytes left. -/
theorem reaches_showFrom (n : Nat) {s : State} {rest : List HostOp} {i : Nat} (hidle : s.busy = false)
    (hcells : s.cells ≤ 2 ^ 20) (hi : i + n = s.cells) (hp : s.program = .showFrom i :: rest) :
    ∃ t, s.Reaches t ∧ t.program = rest ∧ s.SameBlock t ∧ t.faults = s.faults ∧
      t.screen = s.screen ++ (List.range' i n).map fun j => s.canvasByte j == displayOnValue := by
  induction n generalizing s i with
  | zero => exact ⟨_, reaches_of_step (step_showFrom_end hidle (by omega) hp), rfl, by simp [State.SameBlock], rfl,
      by simp⟩
  | succ n ih =>
    have hnext : i + 1 + n = (s.shown i rest).cells := (Nat.add_right_comm i 1 n).trans hi
    obtain ⟨t, hreach, hrest, hblock, hfaults, hscreen⟩ := ih (s := s.shown i rest) hidle hcells hnext rfl
    refine ⟨t, State.Reaches.trans ⟨3, run_showFrom hidle hcells (by omega) hp⟩ hreach, hrest, hblock, hfaults, ?_⟩
    rw [hscreen, List.range'_succ, List.map_cons, State.shown, List.append_assoc]
    rfl

/-! ## The mutation -/

/-- What the walk of the mutation leaves: the parameter registers, the canvas, the fault set and the frame counter. -/
structure State.SameScene (s t : State) : Prop where
  seed : t.seed = s.seed
  kind : t.kind = s.kind
  freq : t.freq = s.freq
  nscale : t.nscale = s.nscale
  invert : t.invert = s.invert
  canvas : t.canvas = s.canvas
  faults : t.faults = s.faults
  frameCount : t.frameCount = s.frameCount

theorem State.SameScene.trans {s t u : State} (hst : s.SameScene t) (htu : t.SameScene u) : s.SameScene u :=
  ⟨htu.seed.trans hst.seed, htu.kind.trans hst.kind, htu.freq.trans hst.freq, htu.nscale.trans hst.nscale,
    htu.invert.trans hst.invert, htu.canvas.trans hst.canvas, htu.faults.trans hst.faults,
    htu.frameCount.trans hst.frameCount⟩

/-- `t` is idle with `rest` to perform, one PRNG command after `s`. -/
structure State.Drawn (s t : State) (rest : List HostOp) (kept : List Word) : Prop where
  idle : t.busy = false
  program : t.program = rest
  arg0 : t.arg0 = xorshift32 s.arg0
  result : t.result = xorshift32 s.arg0
  kept : t.kept = kept
  scene : s.SameScene t

/-- The engine's step on a pending PRNG. -/
theorem step_prng {s : State} (hturn : s.engineTurn = true) (hcl : s.cl = encode .prng) :
    step s = .next { s with arg0 := xorshift32 s.arg0, result := xorshift32 s.arg0, busy := false } := by
  rw [step_engine hturn, engineStep_of_decode (by rw [hcl]; exact decode_encode .prng), exec_prng]

theorem step_wait {s : State} {rest : List HostOp} (hturn : s.engineTurn = false) (hp : s.program = .wait :: rest) :
    step s = .next { s with
      received := some s.statusWord :: s.received
      program := if s.busy then .wait :: rest else rest
      polls := s.polls - 1 } := by
  rw [step_host hturn, hostStep_wait hp]

/-- However many host steps are drawn to come first, a `wait` on a pending PRNG ends after the engine's step. -/
theorem reaches_wait_prng (n : Nat) {s : State} {rest : List HostOp} (hpolls : s.polls = n) (hbusy : s.busy = true)
    (hcl : s.cl = encode .prng) (hp : s.program = .wait :: rest) : ∃ t, s.Reaches t ∧ s.Drawn t rest s.kept := by
  induction n generalizing s with
  | zero =>
    have hengine := step_prng (s.engineTurn_iff.mpr ⟨hbusy, .inl hpolls⟩) hcl
    exact ⟨_, .head hengine (reaches_of_step (step_wait rfl hp)), rfl, rfl, rfl, rfl, rfl,
      ⟨rfl, rfl, rfl, rfl, rfl, rfl, rfl, rfl⟩⟩
  | succ n ih =>
    have hturn : s.engineTurn = false := by simp [State.engineTurn, hpolls, hp]
    have hwait := step_wait hturn hp
    rw [hbusy, if_pos rfl] at hwait
    obtain ⟨t, hreach, ht⟩ := ih (s := { s with
      received := some s.statusWord :: s.received, program := .wait :: rest, polls := s.polls - 1 })
      (Nat.sub_eq_of_eq_add hpolls) hbusy hcl rfl
    exact ⟨t, .head (by rw [hwait, hbusy]) hreach, ht.idle, ht.program, ht.arg0, ht.result, ht.kept,
      ⟨ht.scene.seed, ht.scene.kind, ht.scene.freq, ht.scene.nscale, ht.scene.invert, ht.scene.canvas, ht.scene.faults,
        ht.scene.frameCount⟩⟩

/-- One draw of the mutation: the PRNG command, its wait, the read of RESULT, and the draw kept. -/
theorem reaches_drawOps {s : State} {rest : List HostOp} (hidle : s.busy = false) (hp : s.program = drawOps ++ rest) :
    ∃ t, s.Reaches t ∧ s.Drawn t rest (s.kept ++ [xorshift32 s.arg0]) := by
  have hp : s.program = opCmd .prng :: .wait :: opRd .result :: .compute .keep :: rest := hp
  have hissue := step_opWr_of_idle (r := .cmd) (v := encode .prng) hidle hp
  obtain ⟨t, hwait, ht⟩ := reaches_wait_prng _ rfl rfl rfl rfl
    (s := (s.fetched (.wait :: opRd .result :: .compute .keep :: rest)).writeReg .cmd (encode .prng))
  have hread := step_opRd_of_idle (r := .result) ht.idle ht.program
  have hkeep := step_op_of_idle (s := { t with
    program := .compute .keep :: rest
    polls := t.polls - 1
    received := some (t.readReg .result) :: t.received }) ht.idle rfl
  refine ⟨_, .head hissue (hwait.trans (.head hread (reaches_of_step hkeep))), ht.idle, rfl, ht.arg0, ht.result, ?_,
    ⟨ht.scene.seed, ht.scene.kind, ht.scene.freq, ht.scene.nscale, ht.scene.invert, ht.scene.canvas, ht.scene.faults,
      ht.scene.frameCount⟩⟩
  calc t.kept ++ [t.result]
    _ = s.kept ++ [xorshift32 s.arg0] := congrArg₂ (fun l r => l ++ [r]) ht.kept ht.result

section Writes
variable {s : State} {rest : List HostOp} {b : Bool} (hidle : s.busy = false)
include hidle

/-- After a read of SEED, the sum s0 is on its way to ARG0 (R254). -/
theorem step_mutationSeed {v : Word} {reads : List (Option Word)} (hp : s.program = .compute .mutationSeed :: rest)
    (hreads : s.received = some v :: reads) :
    step s = .next { s with
      program := opWr .arg0 (v + s.frameCount) :: rest
      polls := s.polls - 1
      draws := s.draws + 1
      kept := [] } := by
  rw [step_op_of_idle hidle hp]
  simp [hostOp, hostCalc, State.lastRead, hreads, State.prepend, State.nextSlot]

theorem step_mutationWrites {r1 r2 r3 r4 : Word} (hp : s.program = .compute .mutationWrites :: rest)
    (hkept : s.kept = [r1, r2, r3, r4]) :
    step s = .next { s with
      program := mutationOps r1 r2 r3 r4 ++ rest
      polls := s.polls - 1
      draws := s.draws + 1 } := by
  rw [step_op_of_idle hidle hp]
  simp [hostOp, hostCalc, hkept, State.prepend, State.nextSlot]

/-- Decision (a): KIND is written where it fires (R255). -/
theorem reaches_kindWrite {w : Word} (hp : s.program = (if b then [opWr .kind w] else []) ++ rest) :
    ∃ n, s.Reaches { s with kind := if b then w else s.kind, program := rest, polls := n } := by
  cases b
  · obtain rfl : s.program = rest := hp
    exact ⟨s.polls, .refl s⟩
  · exact ⟨s.polls - 1, reaches_of_step (step_opWr_of_idle hidle hp)⟩

theorem step_toggleInvert {v : Word} {reads : List (Option Word)} (hp : s.program = .compute .toggleInvert :: rest)
    (hreads : s.received = some v :: reads) :
    step s = .next { s with
      program := opWr .ctrl (v ^^^ 1#32) :: rest
      polls := s.polls - 1
      draws := s.draws + 1 } := by
  rw [step_op_of_idle hidle hp]
  simp [hostOp, hostCalc, State.lastRead, hreads, State.prepend, State.nextSlot]

/-- Decision (d): CTRL is read and written back toggled where it fires (R258). -/
theorem reaches_toggle (hp : s.program = (if b then [opRd .ctrl, .compute .toggleInvert] else []) ++ rest) :
    ∃ n d rs, s.Reaches { s with
      invert := if b then !s.invert else s.invert, program := rest, polls := n, draws := d, received := rs } := by
  cases b
  · obtain rfl : s.program = rest := hp
    exact ⟨s.polls, s.draws, s.received, .refl s⟩
  · have hbit : ((s.readReg .ctrl) ^^^ 1#32).getLsbD 0 = !s.invert := by
      cases hinvert : s.invert <;> simp [State.readReg, hinvert]
    have hread := step_opRd_of_idle (r := .ctrl) hidle hp
    have htoggle := step_toggleInvert (s := { s with
      program := .compute .toggleInvert :: rest
      polls := s.polls - 1
      received := some (s.readReg .ctrl) :: s.received }) hidle rfl rfl
    have hwrite := step_opWr_of_idle (r := .ctrl) (s := { s with
      program := opWr .ctrl (s.readReg .ctrl ^^^ 1#32) :: rest
      polls := s.polls - 2
      draws := s.draws + 1
      received := some (s.readReg .ctrl) :: s.received }) hidle rfl
    rw [State.writeReg, hbit] at hwrite
    exact ⟨_, _, _, .head hread (.head htoggle (reaches_of_step hwrite))⟩

/-- The writes of the four decisions, on the four draws (R255-R258). -/
theorem reaches_mutationOps {r1 r2 r3 r4 : Word} (hp : s.program = mutationOps r1 r2 r3 r4 ++ rest) :
    ∃ n d rs, s.Reaches { s with
      kind := if kindChanges r1 then mutatedKind r1 else s.kind
      freq := frequencyOf r2
      nscale := noiseScaleOf r3
      invert := if invertToggles r4 then !s.invert else s.invert
      program := rest, polls := n, draws := d, received := rs } := by
  rw [mutationOps, List.append_assoc, List.append_assoc] at hp
  obtain ⟨n, hkind⟩ := reaches_kindWrite hidle hp
  obtain ⟨n', d, rs, htoggle⟩ := reaches_toggle (b := invertToggles r4) (rest := rest) (s := { s with
    kind := if kindChanges r1 then mutatedKind r1 else s.kind
    freq := frequencyOf r2
    nscale := noiseScaleOf r3
    program := (if invertToggles r4 then [opRd .ctrl, .compute .toggleInvert] else []) ++ rest
    polls := n - 2 }) hidle rfl
  have hfreq := step_opWr_of_idle (r := .freq) (s := { s with
    kind := if kindChanges r1 then mutatedKind r1 else s.kind
    program := [opWr .freq (frequencyOf r2), opWr .nscale (noiseScaleOf r3)] ++
      ((if invertToggles r4 then [opRd .ctrl, .compute .toggleInvert] else []) ++ rest)
    polls := n }) hidle rfl
  have hnscale := step_opWr_of_idle (r := .nscale) (s := { s with
    kind := if kindChanges r1 then mutatedKind r1 else s.kind
    freq := frequencyOf r2
    program := opWr .nscale (noiseScaleOf r3) ::
      ((if invertToggles r4 then [opRd .ctrl, .compute .toggleInvert] else []) ++ rest)
    polls := n - 1 }) hidle rfl
  exact ⟨n', d, rs, hkind.trans (.head hfreq (.head hnscale htoggle))⟩

/-- The mutation's call, the read of SEED, and s0 = SEED + frame_count written to ARG0 (R254). -/
theorem reaches_mutationStart (hp : s.program = .call .mutate :: rest) :
    ∃ n d rs, s.Reaches { s with
      arg0 := s.seed + s.frameCount
      kept := []
      program := drawOps ++ (drawOps ++ (drawOps ++ (drawOps ++ .compute .mutationWrites :: rest)))
      polls := n, draws := d, received := rs } := by
  have hcall := step_call_of_idle hidle hp
  have hread := step_opRd_of_idle (r := .seed) (s := { s with
    program := expandProcedure .mutate (Config.freeWord s.draws) ++ rest
    polls := s.polls - 1
    draws := s.draws + 1 }) hidle rfl
  have hsum := step_mutationSeed (v := s.seed) (reads := s.received) (s := { s with
    program := .compute .mutationSeed ::
      (drawOps ++ (drawOps ++ (drawOps ++ (drawOps ++ .compute .mutationWrites :: rest))))
    polls := s.polls - 2
    draws := s.draws + 1
    received := some s.seed :: s.received }) hidle rfl rfl
  have hwrite := step_opWr_of_idle (r := .arg0) (v := s.seed + s.frameCount) (s := { s with
    program := opWr .arg0 (s.seed + s.frameCount) ::
      (drawOps ++ (drawOps ++ (drawOps ++ (drawOps ++ .compute .mutationWrites :: rest))))
    polls := s.polls - 3
    draws := s.draws + 2
    kept := []
    received := some s.seed :: s.received }) hidle rfl
  exact ⟨_, _, _, .head hcall (.head hread (.head hsum (reaches_of_step hwrite)))⟩

end Writes

/-- The walk of four draws (R254). -/
theorem reaches_walk {s : State} {rest : List HostOp} (hidle : s.busy = false) (hkept : s.kept = [])
    (hp : s.program = drawOps ++ (drawOps ++ (drawOps ++ (drawOps ++ rest)))) :
    ∃ t, s.Reaches t ∧ t.busy = false ∧ t.program = rest ∧ t.arg0 = xorshift32^[4] s.arg0 ∧
      t.result = xorshift32^[4] s.arg0 ∧ t.kept = (List.range 4).map (fun n => xorshift32^[n + 1] s.arg0) ∧
      s.SameScene t := by
  obtain ⟨t1, h1, d1⟩ := reaches_drawOps hidle hp
  obtain ⟨t2, h2, d2⟩ := reaches_drawOps d1.idle d1.program
  obtain ⟨t3, h3, d3⟩ := reaches_drawOps d2.idle d2.program
  obtain ⟨t4, h4, d4⟩ := reaches_drawOps d3.idle d3.program
  have e4 : xorshift32 t3.arg0 = xorshift32^[4] s.arg0 := by rw [d3.arg0, d2.arg0, d1.arg0]; rfl
  refine ⟨t4, h1.trans (h2.trans (h3.trans h4)), d4.idle, d4.program, d4.arg0.trans e4, d4.result.trans e4, ?_,
    d1.scene.trans (d2.scene.trans (d3.scene.trans d4.scene))⟩
  rw [d4.kept, d3.kept, d2.kept, d1.kept, d3.arg0, d2.arg0, d1.arg0, hkept]
  rfl

/-! ## The statements -/

/-- Settles O53: the expansion is an equation, and the count's step puts the mutation next exactly where it is due. -/
theorem tickRendersDisplaysCountsAndMutates : Obligations.TickRendersDisplaysCountsAndMutates := by
  unfold Obligations.TickRendersDisplaysCountsAndMutates
  refine ⟨fun _ => rfl, fun s rest hturn hp => ⟨_, step_host hturn, ?_⟩⟩
  have hcount := hostCalc_countFrame_frameCount (Config.freeWord s.draws) (s.fetched rest)
  have hprogram := hostCalc_countFrame_program (Config.freeWord s.draws) (s.fetched rest)
  rw [hostStep_cons hp]
  refine ⟨hcount, fun hne => hprogram.trans ?_⟩
  rw [hostOp, State.nextSlot_frameCount, hcount] at hne ⊢
  simp only [mutationDue_iff hne]

/-- Settles O55: the call reads the time, and the three writes are formulas of it. -/
theorem randomizeSetsSeedKindAndFrequency : Obligations.RandomizeSetsSeedKindAndFrequency := by
  unfold Obligations.RandomizeSetsSeedKindAndFrequency
  refine ⟨fun s rest hidle hp => ?_, by decide, by decide +kernel⟩
  exact ⟨4, _, run_randomize hidle hp, rfl, rfl, kindPlus_toNat _ 0, rfl, rfl, by simp [State.SameBlock]⟩

/-- Settles O56: the reset leaves the block idle with the source's defaults, and startup runs from there. -/
theorem startupWritesTheSeed : Obligations.StartupWritesTheSeed := by
  unfold Obligations.StartupWritesTheSeed
  intro s rest hp hturn
  have hreset : step s = .next (s.fetched (.call .startup :: rest)).resetEvent := by
    rw [step_host hturn, hostStep_cons hp]; rfl
  have hstart := run_startup (s := (s.fetched (.call .startup :: rest)).resetEvent) rfl rfl
  exact ⟨4, _, (run_next hreset 3).trans hstart, rfl, rfl, rfl, rfl, rfl, rfl, rfl⟩

/-- Settles O57, by induction over the canvas: each byte is read and appended to the grid in three steps. -/
theorem displayShowsEveryCanvasByte : Obligations.DisplayShowsEveryCanvasByte := by
  unfold Obligations.DisplayShowsEveryCanvasByte
  intro s rest hidle hcells hp
  have hcall := step_call_of_idle hidle hp
  have hclear := step_op_of_idle (op := .compute .clearScreen) (rest := .showFrom 0 :: rest) (s := { s with
    program := expandProcedure .display (Config.freeWord s.draws) ++ rest
    polls := s.polls - 1
    draws := s.draws + 1 }) hidle rfl
  obtain ⟨t, hshow, hrest, hblock, hfaults, hscreen⟩ := reaches_showFrom s.cells (i := 0) (rest := rest) (s := { s with
    program := .showFrom 0 :: rest
    polls := s.polls - 2
    draws := s.draws + 2
    screen := [] }) hidle hcells (Nat.zero_add _) rfl
  obtain ⟨k, hrun⟩ := State.Reaches.head hcall (.head hclear hshow)
  exact ⟨k, t, hrun, hrest, hblock, hfaults, by rw [hscreen, List.range_eq_range']; rfl⟩

/-- Settles O60: SEED + frame_count goes to ARG0, four PRNG commands walk from it whatever the schedule, and the writes
are the four decisions on the draws kept. -/
theorem mutationSetsTheFourParameters : Obligations.MutationSetsTheFourParameters := by
  unfold Obligations.MutationSetsTheFourParameters
  intro s rest hidle hp
  obtain ⟨n, d, rs, hstart⟩ := reaches_mutationStart hidle hp
  obtain ⟨t, hwalk, ht, hprogram, harg0, hresult, hkept, hscene⟩ := reaches_walk (s := { s with
      arg0 := s.seed + s.frameCount
      kept := []
      program := drawOps ++ (drawOps ++ (drawOps ++ (drawOps ++ .compute .mutationWrites :: rest)))
      polls := n, draws := d, received := rs }) hidle rfl rfl
  have hcall := step_mutationWrites ht hprogram hkept
  obtain ⟨n', d', rs', hwrites⟩ := reaches_mutationOps (s := { t with
    program := mutationOps _ _ _ _ ++ rest
    polls := t.polls - 1
    draws := t.draws + 1 }) ht rfl
  obtain ⟨k, hrun⟩ := hstart.trans (hwalk.trans (.head hcall hwrites))
  refine ⟨k, _, hrun, ht, rfl, ?_, rfl, rfl, ?_, hscene.seed, harg0, hresult, hscene.canvas, hscene.faults,
    hscene.frameCount⟩
  · simp only [hscene.kind, kindChanges, mutatedKind, decide_eq_true_eq]
    rfl
  · simp only [hscene.invert, invertToggles, decide_eq_true_eq]
    rfl

end Sys2Proof.Machine
end

section
/-! PROOFS. Rounding to the nearest binary32 value (00_scope.md R7, R10): the rounding function returns the magnitude on
whose side of every midpoint its argument lies, so each operation rounds its exact result once. -/

namespace Sys2Proof.Machine

/-! ## The value of a pattern -/

theorem real_eq (a : F32) : Claims.real a = (fUnits a : ℝ) / 2 ^ 149 := by
  rw [Claims.real, unitOne]; norm_cast

theorem fIsFinite_iff (a : F32) : fIsFinite a = true ↔ fMag a < infMag := decide_eq_true_iff

theorem magUnits_infMag : magUnits infMag = 2 ^ 277 := by decide +kernel

theorem magUnits_infMag_pred : magUnits (infMag - 1) + 2 ^ 253 = 2 ^ 277 := by decide +kernel

/-- A significand of at most 24 bits, or their carry, packed with the number of bits dropped. -/
theorem magUnits_pack {k d : Nat} (hd : d ≤ 2 ^ 24) (hk : k ≠ 0 → 2 ^ 23 ≤ d) :
    magUnits (k * 2 ^ 23 + d) = d * 2 ^ k := by
  rcases Nat.lt_or_ge d (2 ^ 23) with hsmall | hbig
  · obtain rfl : k = 0 := by by_contra h; exact absurd (hk h) (Nat.not_le.mpr hsmall)
    rw [magUnits, if_pos (by omega)]
    omega
  · rcases Nat.lt_or_ge d (2 ^ 24) with hlt | hge
    · have hexp : (k * 2 ^ 23 + d) / 2 ^ 23 = k + 1 := by omega
      have hsig : 2 ^ 23 + (k * 2 ^ 23 + d) % 2 ^ 23 = d := by omega
      simp only [magUnits, hexp, hsig, Nat.add_sub_cancel, Nat.succ_ne_zero, if_false]
    · obtain rfl : d = 2 ^ 24 := by omega
      have hexp : (k * 2 ^ 23 + 2 ^ 24) / 2 ^ 23 = k + 2 := by omega
      have hsig : 2 ^ 23 + (k * 2 ^ 23 + 2 ^ 24) % 2 ^ 23 = 2 ^ 23 := by omega
      simp only [magUnits, hexp, hsig, Nat.succ_ne_zero, if_false, show k + 2 - 1 = k + 1 from rfl]
      ring

/-! ## Nearest magnitudes -/

/-- `v` units lie on `r`'s side of the midpoint between `r` and every other magnitude; on a midpoint `r` is even. -/
structure NearestMag (r : Nat) (v : ℝ) : Prop where
  above : ∀ m, r < m → 2 * v ≤ magUnits r + magUnits m ∧ (2 * v = magUnits r + magUnits m → r % 2 = 0)
  below : ∀ m, m < r → magUnits m + magUnits r ≤ 2 * v ∧ (magUnits m + magUnits r = 2 * v → r % 2 = 0)

theorem magUnits_cast_lt {m n : Nat} (h : m < n) : (magUnits m : ℝ) < magUnits n := by
  exact_mod_cast magUnits_strictMono h

theorem magUnits_cast_le {m n : Nat} (h : m ≤ n) : (magUnits m : ℝ) ≤ magUnits n := by
  exact_mod_cast magUnits_strictMono.monotone h

/-- It is enough to look at the two neighbours. -/
theorem NearestMag.of_neighbours {r : Nat} {v : ℝ} (hup : 2 * v ≤ magUnits r + magUnits (r + 1))
    (huptie : 2 * v = magUnits r + magUnits (r + 1) → r % 2 = 0)
    (hdown : 0 < r → magUnits (r - 1) + magUnits r ≤ 2 * v ∧ (magUnits (r - 1) + magUnits r = 2 * v → r % 2 = 0)) :
    NearestMag r v := by
  refine ⟨fun m hm => ?_, fun m hm => ?_⟩
  · rcases Nat.eq_or_lt_of_le (Nat.succ_le_of_lt hm) with rfl | hlt
    · exact ⟨hup, huptie⟩
    · have := magUnits_cast_lt hlt
      exact ⟨by linarith, fun h => by linarith⟩
  · rcases Nat.eq_or_lt_of_le (Nat.le_sub_one_of_lt hm) with rfl | hlt
    · exact hdown (by omega)
    · have := magUnits_cast_lt hlt
      obtain ⟨hle, -⟩ := hdown (by omega)
      exact ⟨by linarith, fun h => by linarith⟩

/-- Nearest magnitudes rise with the value. -/
theorem NearestMag.mono {r r' : Nat} {v v' : ℝ} (h : NearestMag r v) (h' : NearestMag r' v') (hv : v ≤ v') :
    r ≤ r' := by
  by_contra hlt
  push Not at hlt
  obtain ⟨hup, huptie⟩ := h'.above (r' + 1) (by omega)
  obtain ⟨hdown, hdowntie⟩ := h.below r' hlt
  rcases Nat.eq_or_lt_of_le (Nat.succ_le_of_lt hlt) with rfl | hgap
  · have h1 := huptie (by linarith)
    have h2 := hdowntie (by linarith)
    omega
  · have := magUnits_cast_lt hgap
    linarith

theorem NearestMag.unique {r r' : Nat} {v : ℝ} (h : NearestMag r v) (h' : NearestMag r' v) : r = r' :=
  le_antisymm (h.mono h' le_rfl) (h'.mono h le_rfl)

/-- What lies between two values with the same nearest magnitude has it too. -/
theorem NearestMag.between {r : Nat} {lo v hi : ℝ} (hlo : NearestMag r lo) (hhi : NearestMag r hi) (h1 : lo ≤ v)
    (h2 : v ≤ hi) : NearestMag r v := by
  refine ⟨fun m hm => ?_, fun m hm => ?_⟩
  · obtain ⟨hup, huptie⟩ := hhi.above m hm
    exact ⟨by linarith, fun h => huptie (by linarith)⟩
  · obtain ⟨hdown, hdowntie⟩ := hlo.below m hm
    exact ⟨by linarith, fun h => hdowntie (by linarith)⟩

/-- A representable value is its own nearest. -/
theorem nearestMag_magUnits (r : Nat) : NearestMag r (magUnits r) := by
  refine ⟨fun m hm => ?_, fun m hm => ?_⟩ <;> have := magUnits_cast_lt hm
  · exact ⟨by linarith, fun h => by linarith⟩
  · exact ⟨by linarith, fun h => by linarith⟩

/-- The overflow threshold is the midpoint between the greatest finite magnitude and 2^128, and it rounds up. -/
theorem NearestMag.lt_infMag_iff {r : Nat} {v : ℝ} (h : NearestMag r v) : r < infMag ↔ v < 2 ^ 277 - 2 ^ 252 := by
  have htop : (magUnits infMag : ℝ) = 2 ^ 277 := by rw [magUnits_infMag, Nat.cast_pow, Nat.cast_ofNat]
  have hpred : (magUnits (infMag - 1) : ℝ) + 2 * 2 ^ 252 = 2 ^ 277 := by
    have := congrArg (Nat.cast (R := ℝ)) magUnits_infMag_pred
    rwa [Nat.cast_add, Nat.cast_pow, Nat.cast_pow, Nat.cast_ofNat, pow_succ' (2 : ℝ) 252] at this
  generalize (2 : ℝ) ^ 277 = top at *
  generalize (2 : ℝ) ^ 252 = half at *
  constructor
  · intro hr
    obtain ⟨hup, huptie⟩ := h.above infMag hr
    rcases Nat.eq_or_lt_of_le (Nat.le_sub_one_of_lt hr) with rfl | hlt
    · exact lt_of_le_of_ne (by linarith) fun heq => absurd (huptie (by linarith)) (by decide)
    · have := magUnits_cast_lt hlt
      linarith
  · intro hv
    by_contra hr
    push Not at hr
    obtain ⟨hdown, -⟩ := h.below (infMag - 1) (lt_of_lt_of_le (by decide) hr)
    have := magUnits_cast_le hr
    linarith

/-! ## The rounding function -/

/-- The significand the rounding function packs: the argument over its dropped bits, ties to even. -/
def roundedSig (num den : Nat) : Nat := divRoundEven num (den * 2 ^ droppedBits (num / den))

/-- The rounding function before the overflow to infinity. -/
def roundFree (num den : Nat) : Nat := droppedBits (num / den) * 2 ^ 23 + roundedSig num den

theorem roundMag_eq_min (num den : Nat) : roundMag num den = min (roundFree num den) infMag := rfl

theorem magUnits_roundFree (num den : Nat) :
    magUnits (roundFree num den) = roundedSig num den * 2 ^ droppedBits (num / den) :=
  magUnits_pack (significand_le num den) (le_significand num den)

/-- The next magnitude is at least one unit of the significand away: exactly one, or two past the carry. -/
theorem le_magUnits_roundFree_succ (num den : Nat) :
    (roundedSig num den + 1) * 2 ^ droppedBits (num / den) ≤ magUnits (roundFree num den + 1) := by
  have hsig : roundedSig num den ≤ 2 ^ 24 := significand_le num den
  have hlead : droppedBits (num / den) ≠ 0 → 2 ^ 23 ≤ roundedSig num den := le_significand num den
  unfold roundFree
  generalize roundedSig num den = d at *
  generalize droppedBits (num / den) = k at *
  rcases Nat.eq_or_lt_of_le hsig with rfl | hlt
  · have hnext : k * 2 ^ 23 + 2 ^ 24 + 1 = (k + 1) * 2 ^ 23 + (2 ^ 23 + 1) := by ring
    rw [hnext, magUnits_pack (by decide) (fun _ => by decide), pow_succ]
    omega
  · rw [Nat.add_assoc, magUnits_pack hlt fun hk => (hlead hk).trans (Nat.le_succ d)]

/-- The magnitude before is one unit of the significand away; past a power of two it may be nearer, but then nothing is
rounded up to the power. -/
theorem magUnits_roundFree_pred (num den : Nat) (hpos : 0 < roundFree num den) :
    (0 < roundedSig num den ∧
      magUnits (roundFree num den - 1) = (roundedSig num den - 1) * 2 ^ droppedBits (num / den)) ∨
      magUnits (roundFree num den) ≤ num / den := by
  have hsig : roundedSig num den ≤ 2 ^ 24 := significand_le num den
  have hlead : droppedBits (num / den) ≠ 0 → 2 ^ 23 ≤ roundedSig num den := le_significand num den
  have hquot := two_pow_droppedBits_le (q := num / den)
  rw [magUnits_roundFree]
  unfold roundFree at *
  generalize roundedSig num den = d at *
  generalize droppedBits (num / den) = k at *
  by_cases hpower : k ≠ 0 ∧ d = 2 ^ 23
  · obtain ⟨hk, rfl⟩ := hpower
    rw [pow_add, Nat.mul_comm] at hquot
    exact .inr (hquot hk)
  · have hd : 0 < d := by
      by_contra h
      obtain rfl : d = 0 := by omega
      have hk : k ≠ 0 := by rintro rfl; omega
      exact absurd (hlead hk) (by decide)
    rw [Nat.add_sub_assoc hd]
    refine .inl ⟨hd, magUnits_pack (by omega) fun hk => ?_⟩
    have := hlead hk
    have : d ≠ 2 ^ 23 := fun h => hpower ⟨hk, h⟩
    omega

section Quotient
variable (num : Nat) {den : Nat} (hden : 0 < den)
include hden

theorem two_mul_le_roundedSig : (2 * (num / den) : ℝ) ≤ (2 * roundedSig num den + 1) * 2 ^ droppedBits (num / den) ∧
    ((2 * (num / den) : ℝ) = (2 * roundedSig num den + 1) * 2 ^ droppedBits (num / den) →
      roundedSig num den % 2 = 0) := by
  obtain ⟨hle, -, htie, -⟩ := divRoundEven_spec num (den * 2 ^ droppedBits (num / den)) (by positivity)
  have hdenR : (0 : ℝ) < den := by exact_mod_cast hden
  rw [← mul_div_assoc, div_le_iff₀ hdenR, div_eq_iff hdenR.ne', mul_assoc, mul_comm _ (den : ℝ)]
  exact ⟨by exact_mod_cast hle, fun h => htie (by exact_mod_cast h)⟩

theorem roundedSig_le_two_mul : (2 * roundedSig num den - 1) * 2 ^ droppedBits (num / den) ≤ (2 * (num / den) : ℝ) ∧
    ((2 * roundedSig num den - 1) * 2 ^ droppedBits (num / den) = (2 * (num / den) : ℝ) →
      roundedSig num den % 2 = 0) := by
  obtain ⟨-, hle, -, htie⟩ := divRoundEven_spec num (den * 2 ^ droppedBits (num / den)) (by positivity)
  have hdenR : (0 : ℝ) < den := by exact_mod_cast hden
  have hscale (x : ℝ) : (2 * x - 1) * 2 ^ droppedBits (num / den) * den =
      2 * (x * (den * 2 ^ droppedBits (num / den))) - den * 2 ^ droppedBits (num / den) := by ring
  rw [← mul_div_assoc, le_div_iff₀ hdenR, eq_div_iff hdenR.ne', hscale, sub_le_iff_le_add, sub_eq_iff_eq_add]
  exact ⟨by exact_mod_cast hle, fun h => htie (by exact_mod_cast h)⟩

theorem roundFree_nearest : NearestMag (roundFree num den) (num / den : ℝ) := by
  obtain ⟨hhi, hhitie⟩ := two_mul_le_roundedSig num hden
  obtain ⟨hlo, hlotie⟩ := roundedSig_le_two_mul num hden
  have hunits : (magUnits (roundFree num den) : ℝ) = roundedSig num den * 2 ^ droppedBits (num / den) := by
    exact_mod_cast magUnits_roundFree num den
  have hnext : ((roundedSig num den + 1) * 2 ^ droppedBits (num / den) : ℝ) ≤ magUnits (roundFree num den + 1) := by
    exact_mod_cast le_magUnits_roundFree_succ num den
  have heven (h : roundedSig num den % 2 = 0) : roundFree num den % 2 = 0 := by unfold roundFree; omega
  refine NearestMag.of_neighbours (by linarith) (fun h => heven (hhitie (by linarith))) fun hpos => ?_
  rcases magUnits_roundFree_pred num den hpos with ⟨hsig, hpred⟩ | hpower
  · have hpredR : (magUnits (roundFree num den - 1) : ℝ) =
        (roundedSig num den - 1) * 2 ^ droppedBits (num / den) := by
      rw [hpred]; push_cast [Nat.cast_sub hsig]; rfl
    exact ⟨by linarith, fun h => heven (hlotie (by linarith))⟩
  · have hbefore := magUnits_cast_lt (Nat.sub_lt hpos one_pos)
    have hquot : (magUnits (roundFree num den) : ℝ) ≤ num / den :=
      (Nat.cast_le.mpr hpower).trans Nat.cast_div_le
    exact ⟨by linarith, fun h => by linarith⟩

end Quotient

/-! ## Nearest patterns -/

/-- A real number with this sign. -/
def signed (neg : Bool) (x : ℝ) : ℝ := if neg then -x else x

@[simp] theorem signed_zero (neg : Bool) : signed neg 0 = 0 := by cases neg <;> simp [signed]

@[simp] theorem abs_signed (neg : Bool) (x : ℝ) : |signed neg x| = |x| := by cases neg <;> simp [signed]

theorem signed_sub (neg : Bool) (x y : ℝ) : signed neg x - signed neg y = signed neg (x - y) := by
  cases neg <;> simp [signed]; ring

theorem signed_mul (p q : Bool) (x y : ℝ) : signed p x * signed q y = signed (p != q) (x * y) := by
  cases p <;> cases q <;> simp [signed]

theorem signed_div (p q : Bool) (x y : ℝ) : signed p x / signed q y = signed (p != q) (x / y) := by
  cases p <;> cases q <;> simp [signed, neg_div, div_neg]

theorem signed_div_right (p : Bool) (x c : ℝ) : signed p (x / c) = signed p x / c := by
  cases p <;> simp [signed, neg_div]

theorem real_eq_signed (a : F32) : Claims.real a = signed (fSign a) (fAbsUnits a / 2 ^ 149) := by
  rw [real_eq, fUnits, signed]
  split <;> push_cast <;> ring

theorem real_fPack (neg : Bool) {m : Nat} (hm : m < 2 ^ 31) :
    Claims.real (fPack neg m) = signed neg (magUnits m / 2 ^ 149) := by
  rw [real_eq_signed, fAbsUnits, fSign_fPack neg hm, fMag_fPack neg hm]

theorem fIsFinite_fPack (neg : Bool) {m : Nat} (hm : m < infMag) : fIsFinite (fPack neg m) = true := by
  rw [fIsFinite_iff, fMag_fPack neg (hm.trans (by decide))]; exact hm

/-- No other magnitude is nearer, and on a tie `r` is even. -/
theorem NearestMag.dist_magUnits_le {r : Nat} {v : ℝ} (h : NearestMag r v) (m : Nat) :
    |magUnits r - v| ≤ |magUnits m - v| ∧ (|magUnits r - v| = |magUnits m - v| → m ≠ r → r % 2 = 0) := by
  rcases Nat.lt_trichotomy m r with hlt | rfl | hlt
  · obtain ⟨hle, htie⟩ := h.below m hlt
    have hunits := magUnits_cast_lt hlt
    rw [abs_sub_comm (magUnits m : ℝ), abs_of_nonneg (by linarith : 0 ≤ v - magUnits m)]
    refine ⟨abs_le.mpr ⟨by linarith, by linarith⟩, fun heq _ => htie ?_⟩
    rcases eq_or_eq_neg_of_abs_eq heq with h1 | h1 <;> linarith
  · exact ⟨le_rfl, fun _ hne => absurd rfl hne⟩
  · obtain ⟨hle, htie⟩ := h.above m hlt
    have hunits := magUnits_cast_lt hlt
    rw [abs_of_nonneg (by linarith : 0 ≤ magUnits m - v)]
    refine ⟨abs_le.mpr ⟨by linarith, by linarith⟩, fun heq _ => htie ?_⟩
    rcases eq_or_eq_neg_of_abs_eq heq with h1 | h1 <;> linarith

/-- No other value, of either sign, is nearer: a negative one is farther from `v` than 0 is. -/
theorem NearestMag.dist_le {r : Nat} {v : ℝ} (h : NearestMag r v) (hv : 0 ≤ v) {x : ℝ} {m : Nat}
    (hx : |x| = magUnits m) :
    |magUnits r - v| ≤ |x - v| ∧ (|magUnits r - v| = |x - v| → x ≠ magUnits r → r % 2 = 0) := by
  have hzero : (magUnits 0 : ℝ) = 0 := Nat.cast_zero
  rcases eq_or_eq_neg_of_abs_eq hx with rfl | rfl
  · obtain ⟨hle, htie⟩ := h.dist_magUnits_le m
    exact ⟨hle, fun heq hne => htie heq fun hm => hne (by rw [hm])⟩
  · obtain ⟨hle, htie⟩ := h.dist_magUnits_le 0
    rcases Nat.eq_zero_or_pos m with rfl | hm
    · rw [hzero] at hle htie
      rw [hzero, neg_zero]
      exact ⟨hle, fun heq hne => htie heq fun hr => hne (by rw [← hr, hzero])⟩
    · have hpos := magUnits_cast_lt hm
      rw [hzero, zero_sub, abs_neg, abs_of_nonneg hv] at hle
      rw [hzero] at hpos
      have hfar : |-(magUnits m : ℝ) - v| = magUnits m + v := by
        rw [abs_of_nonpos (by linarith)]; ring
      exact ⟨by linarith, fun heq => by linarith⟩

/-- The pattern of a finite nearest magnitude is the nearest pattern. -/
theorem NearestMag.isNearest {r : Nat} {v : ℝ} (h : NearestMag r v) (hv : 0 ≤ v) (hr : r < infMag) (neg : Bool) :
    Claims.IsNearest (fPack neg r) (signed neg (v / 2 ^ 149)) := by
  have hr31 : r < 2 ^ 31 := hr.trans (by decide)
  refine ⟨fIsFinite_fPack neg hr, fun b _ => ?_⟩
  have hb : Claims.real b = signed neg (signed (neg != fSign b) (fAbsUnits b) / 2 ^ 149) := by
    rw [real_eq_signed]; cases neg <;> cases fSign b <;> simp [signed, neg_div]
  obtain ⟨hle, htie⟩ := h.dist_le hv (x := signed (neg != fSign b) (fAbsUnits b)) (m := fMag b)
    (by rw [abs_signed, Nat.abs_cast]; rfl)
  rw [real_fPack neg hr31, hb, signed_sub, signed_sub, abs_signed, abs_signed, ← sub_div, ← sub_div, abs_div, abs_div,
    fMag_fPack neg hr31]
  refine ⟨by gcongr, fun heq hne => htie ?_ fun hx => hne (by rw [hx])⟩
  exact (div_left_inj' (by positivity)).mp heq

theorem fPack_infMag (neg : Bool) : fPack neg infMag = Claims.signedInf neg := by cases neg <;> rfl

theorem roundMag_of_lt {num den : Nat} (h : roundFree num den < infMag) : roundMag num den = roundFree num den :=
  Nat.min_eq_left h.le

theorem roundMag_of_ge {num den : Nat} (h : infMag ≤ roundFree num den) : roundMag num den = infMag :=
  Nat.min_eq_right h

/-- The overflow threshold in units. -/
theorem div_units_lt_threshold_iff (x : ℝ) : x / 2 ^ 149 < 2 ^ 128 - 2 ^ 103 ↔ x < 2 ^ 277 - 2 ^ 252 := by
  rw [div_lt_iff₀ (by positivity), sub_mul, ← pow_add, ← pow_add]

/-- One rounding of a quotient of natural numbers of units. -/
theorem fRound_roundsTo (neg : Bool) (num : Nat) {den : Nat} (hden : 0 < den) :
    Claims.RoundsTo (fRound neg num den) (signed neg ((num / den : ℝ) / 2 ^ 149)) := by
  have hnear := roundFree_nearest num hden
  have hv : (0 : ℝ) ≤ num / den / 2 ^ 149 := by positivity
  have hfin : (num / den / 2 ^ 149 : ℝ) < 2 ^ 128 - 2 ^ 103 ↔ roundFree num den < infMag :=
    (div_units_lt_threshold_iff _).trans hnear.lt_infMag_iff.symm
  have hpos : (0 : ℝ) < 2 ^ 128 - 2 ^ 103 := by norm_num
  refine ⟨fun h => ?_, fun h => ?_, fun h => ?_⟩
  · rw [abs_signed, abs_of_nonneg hv, hfin] at h
    rw [fRound, roundMag_of_lt h]
    exact hnear.isNearest (by positivity) h neg
  · cases neg
    · rw [fRound, roundMag_of_ge (not_lt.mp (mt hfin.mpr (not_lt.mpr h)))]; rfl
    · rw [signed, if_pos rfl] at h; linarith
  · cases neg
    · rw [signed, if_neg Bool.false_ne_true] at h; linarith
    · rw [signed, if_pos rfl, neg_le_neg_iff] at h
      rw [fRound, roundMag_of_ge (not_lt.mp (mt hfin.mpr (not_lt.mpr h)))]; rfl

/-! ## The operations on finite values -/

theorem fAbsUnits_of_zero {a : F32} (h : fIsZero a = true) : fAbsUnits a = 0 := by
  rw [fIsZero, beq_iff_eq] at h
  rw [fAbsUnits, h]; rfl

theorem fAbsUnits_pos {a : F32} (h : fIsZero a = false) : 0 < fAbsUnits a :=
  magUnits_strictMono (Nat.pos_of_ne_zero fun h0 => by simp [fIsZero, h0] at h)

theorem fIsInf_of_finite {a : F32} (h : fIsFinite a = true) : fIsInf a = false := by
  rw [fIsFinite_iff] at h
  exact beq_eq_false_iff_ne.mpr h.ne

theorem signed_natAbs (u : Int) : signed (decide (u < 0)) u.natAbs = u := by
  unfold signed
  split
  · next h =>
    rw [decide_eq_true_eq] at h
    rw [← Int.cast_natCast, Int.ofNat_natAbs_of_nonpos h.le]; push_cast; ring
  · next h =>
    rw [decide_eq_true_eq, not_lt] at h
    rw [← Int.cast_natCast, Int.natAbs_of_nonneg h]

theorem fRound_zero (neg : Bool) (den : Nat) : fRound neg 0 den = fPack neg 0 := by
  simp [fRound, roundMag, droppedBits, divRoundEven]

theorem fSign_fNeg (a : F32) : fSign (fNeg a) = !fSign a := by
  have hbit : (0x80000000#32).msb = true := rfl
  rw [fSign, fNeg, BitVec.msb_xor, hbit, Bool.xor_true, fSign]

theorem fMag_fNeg (a : F32) : fMag (fNeg a) = fMag a := by
  have hbit : (0x80000000#32).toNat % 2 ^ 31 = 0 := rfl
  rw [fMag, fNeg, BitVec.toNat_xor, Nat.xor_mod_two_pow, hbit, Nat.xor_zero, fMag]

theorem fIsFinite_fNeg (a : F32) : fIsFinite (fNeg a) = fIsFinite a := by rw [fIsFinite, fMag_fNeg, fIsFinite]

theorem real_fNeg (a : F32) : Claims.real (fNeg a) = -Claims.real a := by
  rw [real_eq_signed, real_eq_signed, fAbsUnits, fMag_fNeg, fSign_fNeg, fAbsUnits]
  cases fSign a <;> simp [signed]

section Finite
variable {a b : F32} (ha : fIsFinite a = true) (hb : fIsFinite b = true)
include ha hb

theorem fadd_of_finite : fadd a b = if fUnits a + fUnits b = 0 then fPack (fSign a && fSign b) 0
    else fRound (decide (fUnits a + fUnits b < 0)) (fUnits a + fUnits b).natAbs 1 := by
  simp [fadd, fIsNaN_of_finite ha, fIsNaN_of_finite hb, fIsInf_of_finite ha, fIsInf_of_finite hb]

theorem fmul_of_finite : fmul a b = fRound (fSign a != fSign b) (fAbsUnits a * fAbsUnits b) unitOne := by
  simp [fmul, fIsNaN_of_finite ha, fIsNaN_of_finite hb, fIsInf_of_finite ha, fIsInf_of_finite hb]

theorem fdiv_of_finite (hz : fIsZero b = false) :
    fdiv a b = fRound (fSign a != fSign b) (fAbsUnits a * unitOne) (fAbsUnits b) := by
  simp [fdiv, fIsNaN_of_finite ha, fIsNaN_of_finite hb, fIsInf_of_finite ha, fIsInf_of_finite hb, hz]

theorem fadd_roundsTo : Claims.RoundsTo (fadd a b) (Claims.real a + Claims.real b) := by
  have hsum : Claims.real a + Claims.real b = ((fUnits a + fUnits b : Int) : ℝ) / 2 ^ 149 := by
    rw [real_eq, real_eq]; push_cast; ring
  rw [fadd_of_finite ha hb, hsum]
  split
  · next h =>
    have hround := fRound_roundsTo (fSign a && fSign b) 0 one_pos
    rw [fRound_zero] at hround
    simpa [h] using hround
  · have hround := fRound_roundsTo (decide (fUnits a + fUnits b < 0)) (fUnits a + fUnits b).natAbs one_pos
    rwa [Nat.cast_one, div_one, signed_div_right, signed_natAbs] at hround

theorem fmul_roundsTo : Claims.RoundsTo (fmul a b) (Claims.real a * Claims.real b) := by
  have hround := fRound_roundsTo (fSign a != fSign b) (fAbsUnits a * fAbsUnits b) (den := unitOne) (by decide)
  have hprod : (fAbsUnits a / 2 ^ 149 * (fAbsUnits b / 2 ^ 149) : ℝ) =
      ((fAbsUnits a * fAbsUnits b : Nat) : ℝ) / (unitOne : Nat) / 2 ^ 149 := by
    rw [unitOne, Nat.cast_mul, Nat.cast_pow, Nat.cast_ofNat]; ring
  rwa [fmul_of_finite ha hb, real_eq_signed, real_eq_signed, signed_mul, hprod]

theorem fdiv_roundsTo (hz : fIsZero b = false) : Claims.RoundsTo (fdiv a b) (Claims.real a / Claims.real b) := by
  have hround := fRound_roundsTo (fSign a != fSign b) (fAbsUnits a * unitOne) (fAbsUnits_pos hz)
  have hne : (fAbsUnits b : ℝ) ≠ 0 := by exact_mod_cast (fAbsUnits_pos hz).ne'
  have hquot : (fAbsUnits a / 2 ^ 149 / (fAbsUnits b / 2 ^ 149) : ℝ) =
      ((fAbsUnits a * unitOne : Nat) : ℝ) / (fAbsUnits b : Nat) / 2 ^ 149 := by
    rw [unitOne, Nat.cast_mul, Nat.cast_pow, Nat.cast_ofNat]; field_simp
  rwa [fdiv_of_finite ha hb hz, real_eq_signed, real_eq_signed, signed_div, hquot]

theorem fsub_roundsTo : Claims.RoundsTo (fsub a b) (Claims.real a - Claims.real b) := by
  rw [sub_eq_add_neg, ← real_fNeg]
  exact fadd_roundsTo ha ((fIsFinite_fNeg b).trans hb)

theorem fSign_fadd_of_zero_sum (h : Claims.real a + Claims.real b = 0) :
    fSign (fadd a b) = (fSign a && fSign b) := by
  have hsum : fUnits a + fUnits b = 0 := by
    rw [real_eq, real_eq, ← add_div, div_eq_zero_iff] at h
    exact_mod_cast h.resolve_right (by positivity)
  rw [fadd_of_finite ha hb, if_pos hsum, fSign_fPack _ (by decide)]

theorem fSign_fmul : fSign (fmul a b) = (fSign a != fSign b) := by rw [fmul_of_finite ha hb, fSign_fRound]

theorem fSign_fdiv (hz : fIsZero b = false) : fSign (fdiv a b) = (fSign a != fSign b) := by
  rw [fdiv_of_finite ha hb hz, fSign_fRound]

theorem fdiv_by_zero (hz : fIsZero b = true) :
    fdiv a b = if fIsZero a then canonicalNaN else Claims.signedInf (fSign a != fSign b) := by
  simp [fdiv, fIsNaN_of_finite ha, fIsNaN_of_finite hb, fIsInf_of_finite ha, fIsInf_of_finite hb, hz, fPack_infMag]

theorem flt_iff_real : flt a b = true ↔ Claims.real a < Claims.real b := by
  rw [flt_iff_fUnits ha hb, real_eq, real_eq, div_lt_div_iff_of_pos_right (by positivity), Int.cast_lt]

theorem fle_iff_real : fle a b = true ↔ Claims.real a ≤ Claims.real b := by
  rw [fle_iff_fUnits ha hb, real_eq, real_eq, div_le_div_iff_of_pos_right (by positivity), Int.cast_le]

end Finite

theorem cvtF32_roundsTo (n : Int) : Claims.RoundsTo (cvtF32 n) n := by
  have hround := fRound_roundsTo (decide (n < 0)) (n.natAbs * unitOne) one_pos
  have hvalue : ((n.natAbs * unitOne : Nat) : ℝ) / (1 : Nat) / 2 ^ 149 = n.natAbs := by
    rw [unitOne, Nat.cast_mul, Nat.cast_pow, Nat.cast_ofNat, Nat.cast_one]; field_simp
  rwa [hvalue, signed_natAbs] at hround

/-! ## Exact results -/

/-- Every significand of at most 24 bits, or their carry, is a magnitude at every exponent. -/
theorem exists_magUnits (k : Nat) {d : Nat} (hd : d ≤ 2 ^ 24) : ∃ m, magUnits m = d * 2 ^ k := by
  induction k generalizing d with
  | zero => exact ⟨_, magUnits_pack (k := 0) hd (fun h => absurd rfl h)⟩
  | succ k ih =>
    rcases Nat.lt_or_ge d (2 ^ 23) with hlt | hge
    · obtain ⟨m, hm⟩ := ih (d := 2 * d) (by omega)
      exact ⟨m, by rw [hm, pow_succ]; ring⟩
    · exact ⟨_, magUnits_pack hd fun _ => hge⟩

/-- A quotient that is a magnitude's units below the threshold is rounded to that magnitude. -/
theorem roundMag_of_units {num den m : Nat} (hden : 0 < den) (h : num = magUnits m * den) (hm : m < infMag) :
    roundMag num den = m := by
  rw [h, roundMag_exact hden hm]

theorem lt_infMag_of_units {m d k : Nat} (h : magUnits m = d * 2 ^ k) (hd : d ≤ 2 ^ 24) (hk : k ≤ 252) :
    m < infMag := by
  rw [← magUnits_strictMono.lt_iff_lt, h, magUnits_infMag]
  calc d * 2 ^ k
    _ ≤ 2 ^ 24 * 2 ^ 252 := Nat.mul_le_mul hd (Nat.pow_le_pow_right (by decide) hk)
    _ < 2 ^ 277 := by decide +kernel

theorem cvtF32_exact {n : Int} (hn : |n| ≤ 2 ^ 24) :
    fIsFinite (cvtF32 n) = true ∧ Claims.real (cvtF32 n) = n := by
  have habs : n.natAbs ≤ 2 ^ 24 := by rw [Int.abs_eq_natAbs] at hn; omega
  obtain ⟨m, hm⟩ := exists_magUnits 149 habs
  have hfin := lt_infMag_of_units hm habs (by decide)
  have hmag : roundMag (n.natAbs * unitOne) 1 = m := roundMag_of_units one_pos (by rw [hm, unitOne, mul_one]) hfin
  rw [cvtF32, fRound, hmag]
  refine ⟨fIsFinite_fPack _ hfin, ?_⟩
  rw [real_fPack _ (hfin.trans (by decide)), hm, Nat.cast_mul, Nat.cast_pow, Nat.cast_ofNat,
    mul_div_cancel_right₀ _ (by positivity), signed_natAbs]

/-! ## Infinities and NaNs -/

@[simp] theorem fIsNaN_signedInf (q : Bool) : fIsNaN (Claims.signedInf q) = false := by cases q <;> rfl
@[simp] theorem fIsInf_signedInf (q : Bool) : fIsInf (Claims.signedInf q) = true := by cases q <;> rfl
@[simp] theorem fIsZero_signedInf (q : Bool) : fIsZero (Claims.signedInf q) = false := by cases q <;> rfl
@[simp] theorem fSign_signedInf (q : Bool) : fSign (Claims.signedInf q) = q := by cases q <;> rfl

theorem fOrder_signedInf (q : Bool) : fOrder (Claims.signedInf q) = if q then -(infMag : Int) else infMag := by
  cases q <;> rfl

theorem fPack_zero (neg : Bool) : fPack neg 0 = Claims.signedZero neg := by cases neg <;> rfl

theorem fOrder_bounds {a : F32} (ha : fIsFinite a = true) : -(infMag : Int) < fOrder a ∧ fOrder a < infMag := by
  rw [fIsFinite_iff] at ha
  unfold fOrder
  split <;> omega

section Infinite
variable {a : F32} (ha : fIsFinite a = true) (p q : Bool)
include ha

theorem fadd_signedInf : fadd a (Claims.signedInf q) = Claims.signedInf q := by
  simp [fadd, fIsNaN_of_finite ha, fIsInf_of_finite ha]

theorem signedInf_fadd : fadd (Claims.signedInf p) a = Claims.signedInf p := by
  simp [fadd, fIsNaN_of_finite ha, fIsInf_of_finite ha]

theorem fmul_signedInf : fmul a (Claims.signedInf q) =
    if fIsZero a then canonicalNaN else Claims.signedInf (fSign a != q) := by
  simp [fmul, fIsNaN_of_finite ha, fPack_infMag]

theorem signedInf_fmul : fmul (Claims.signedInf p) a =
    if fIsZero a then canonicalNaN else Claims.signedInf (p != fSign a) := by
  simp [fmul, fIsNaN_of_finite ha, fPack_infMag]

theorem fdiv_signedInf : fdiv a (Claims.signedInf q) = Claims.signedZero (fSign a != q) := by
  simp [fdiv, fIsNaN_of_finite ha, fIsInf_of_finite ha,
    fPack_zero]

theorem signedInf_fdiv : fdiv (Claims.signedInf p) a = Claims.signedInf (p != fSign a) := by
  simp [fdiv, fIsNaN_of_finite ha, fIsInf_of_finite ha,
    fPack_infMag]

theorem flt_signedInf : flt a (Claims.signedInf q) = !q := by
  obtain ⟨hlo, hhi⟩ := fOrder_bounds ha
  cases q <;> simp [flt, fIsNaN_of_finite ha, fOrder_signedInf, hhi, hlo.le]

theorem signedInf_flt : flt (Claims.signedInf p) a = p := by
  obtain ⟨hlo, hhi⟩ := fOrder_bounds ha
  cases p <;> simp [flt, fIsNaN_of_finite ha, fOrder_signedInf, hhi.le, hlo]

theorem fle_signedInf : fle a (Claims.signedInf q) = !q := by
  obtain ⟨hlo, hhi⟩ := fOrder_bounds ha
  cases q <;> simp [fle, fIsNaN_of_finite ha, fOrder_signedInf, hhi.le, hlo]

theorem signedInf_fle : fle (Claims.signedInf p) a = p := by
  obtain ⟨hlo, hhi⟩ := fOrder_bounds ha
  cases p <;> simp [fle, fIsNaN_of_finite ha, fOrder_signedInf, hhi, hlo.le]

end Infinite

/-- With a NaN operand every operation gives the NaN and every comparison is false. -/
theorem operations_of_isNaN {a b : F32} (h : fIsNaN a = true ∨ fIsNaN b = true) :
    fadd a b = canonicalNaN ∧ fmul a b = canonicalNaN ∧ fdiv a b = canonicalNaN ∧ flt a b = false ∧ fle a b = false := by
  rcases h with h | h <;> simp [fadd, fmul, fdiv, flt, fle, h]

theorem fIsNaN_fNeg (a : F32) : fIsNaN (fNeg a) = fIsNaN a := by rw [fIsNaN, fMag_fNeg, fIsNaN]

/-! ## The statement -/

/-- Settles O19: each operation is one rounding of its exact result, which is nearest below the overflow threshold and an
infinity past it; the other clauses are its branches on infinities, zeros and NaNs. -/
theorem arithmeticIsRoundedToNearest : Obligations.ArithmeticIsRoundedToNearest := by
  unfold Obligations.ArithmeticIsRoundedToNearest
  refine ⟨fun a b ha hb => ?finite, fun _ _ => rfl, fun a b h => ?nan, fun a p q ha => ?infinite, fun p q => ?infinities,
    cvtF32_roundsTo, fun n hn => cvtF32_exact hn⟩
  case finite =>
    refine ⟨fadd_roundsTo ha hb, fsub_roundsTo ha hb, fmul_roundsTo ha hb, fdiv_roundsTo ha hb,
      fSign_fadd_of_zero_sum ha hb, fSign_fmul ha hb, fSign_fdiv ha hb, fun hza hzb => ?_, fun hza hzb => ?_,
      flt_iff_real ha hb, fle_iff_real ha hb⟩
    · rw [fdiv_by_zero ha hb hzb, hza, if_neg Bool.false_ne_true]
    · rw [fdiv_by_zero ha hb hzb, hza, if_pos rfl]; rfl
  case nan =>
    obtain ⟨hadd, hmul, hdiv, hlt, hle⟩ := operations_of_isNaN h
    rw [← fIsNaN_fNeg b] at h
    obtain ⟨hsub, -⟩ := operations_of_isNaN h
    exact ⟨hadd, hsub, hmul, hdiv, hlt, hle⟩
  case infinite =>
    exact ⟨fadd_signedInf ha q, signedInf_fadd ha p, fmul_signedInf ha q, signedInf_fmul ha p, fdiv_signedInf ha q,
      signedInf_fdiv ha p, flt_signedInf ha q, signedInf_flt ha p, fle_signedInf ha q, signedInf_fle ha p⟩
  case infinities => cases p <;> cases q <;> decide

end Sys2Proof.Machine
end

section
/-! PROOFS. The square root and the remainder of binary32 (41_pattern.md R178, 00_scope.md R10). -/

namespace Sys2Proof.Machine

/-- A pattern is its sign and its magnitude. -/
theorem fPack_fSign_fMag (a : F32) : fPack (fSign a) (fMag a) = a := by
  have ha := a.isLt
  have hmsb : fSign a = decide (2 ^ 31 ≤ a.toNat) := BitVec.msb_eq_decide a
  apply BitVec.eq_of_toNat_eq
  rw [fPack_toNat _ (fMag_lt a), hmsb, fMag]
  by_cases h : 2 ^ 31 ≤ a.toNat
  · rw [decide_eq_true h, if_pos rfl]; omega
  · rw [decide_eq_false h, if_neg Bool.false_ne_true]; omega

/-- A finite pattern is nearest to its own value. -/
theorem isNearest_real {a : F32} (ha : fIsFinite a = true) : Claims.IsNearest a (Claims.real a) := by
  have hnear := (nearestMag_magUnits (fMag a)).isNearest (Nat.cast_nonneg _) ((fIsFinite_iff a).mp ha) (fSign a)
  rwa [fPack_fSign_fMag, ← fAbsUnits, ← real_eq_signed] at hnear

theorem real_of_zero {a : F32} (hz : fIsZero a = true) : Claims.real a = 0 := by
  rw [real_eq_signed, fAbsUnits_of_zero hz, Nat.cast_zero, zero_div, signed_zero]

theorem fUnits_fPack (neg : Bool) {m : Nat} (hm : m < 2 ^ 31) :
    fUnits (fPack neg m) = if neg then -(magUnits m : Int) else magUnits m := by
  rw [fUnits, fAbsUnits, fSign_fPack neg hm, fMag_fPack neg hm]

/-! ## The remainder -/

/-- A magnitude is a significand of at most 24 bits with an exponent. -/
theorem magUnits_eq_significand (m : Nat) : ∃ d k, d < 2 ^ 24 ∧ magUnits m = d * 2 ^ k := by
  by_cases hexp : m / 2 ^ 23 = 0
  · exact ⟨m, 0, by omega, by rw [magUnits, if_pos hexp, pow_zero, mul_one]⟩
  · exact ⟨2 ^ 23 + m % 2 ^ 23, m / 2 ^ 23 - 1, by omega, if_neg hexp⟩

/-- The remainder of two magnitudes is a multiple of the smaller unit, and below both. -/
theorem exists_magUnits_mod (m n : Nat) (hn : 0 < magUnits n) : ∃ r, magUnits r = magUnits m % magUnits n := by
  obtain ⟨d, i, hd, hm⟩ := magUnits_eq_significand m
  obtain ⟨e, j, he, hn'⟩ := magUnits_eq_significand n
  rw [hn'] at hn
  rw [hm, hn']
  rcases Nat.le_total i j with hij | hij
  · obtain ⟨k, rfl⟩ := Nat.exists_eq_add_of_le hij
    obtain ⟨r, hr⟩ := exists_magUnits i ((Nat.mod_le d (e * 2 ^ k)).trans hd.le)
    exact ⟨r, by rw [hr, ← Nat.mul_mod_mul_right, mul_assoc, ← pow_add, Nat.add_comm k]⟩
  · obtain ⟨k, rfl⟩ := Nat.exists_eq_add_of_le hij
    have hpos : 0 < e := Nat.pos_of_ne_zero (by rintro rfl; simp at hn)
    obtain ⟨r, hr⟩ := exists_magUnits j ((Nat.mod_lt (d * 2 ^ k) hpos).le.trans he.le)
    exact ⟨r, by rw [hr, ← Nat.mul_mod_mul_right, mul_assoc, ← pow_add, Nat.add_comm k]⟩

section Remainder
variable {a b : F32} (ha : fIsFinite a = true) (hb : fIsFinite b = true) (hz : fIsZero b = false)
include ha hb hz

theorem ffmod_of_finite : ffmod a b = fRound (fSign a) (fAbsUnits a % fAbsUnits b) 1 := by
  simp [ffmod, fIsNaN_of_finite ha, fIsNaN_of_finite hb, fIsInf_of_finite ha, fIsInf_of_finite hb, hz]

/-- The remainder is a magnitude, so the one rounding leaves it alone. -/
theorem ffmod_eq_fPack : ∃ r, r < infMag ∧ magUnits r = fAbsUnits a % fAbsUnits b ∧ ffmod a b = fPack (fSign a) r := by
  obtain ⟨r, hr⟩ := exists_magUnits_mod (fMag a) (fMag b) (fAbsUnits_pos hz)
  have hle : r ≤ fMag a := magUnits_strictMono.le_iff_le.mp (hr.trans_le (Nat.mod_le _ _))
  have hfin : r < infMag := hle.trans_lt ((fIsFinite_iff a).mp ha)
  refine ⟨r, hfin, hr, ?_⟩
  have hunits : fAbsUnits a % fAbsUnits b = magUnits r * 1 := hr.symm.trans (mul_one _).symm
  rw [ffmod_of_finite ha hb hz, fRound, roundMag_of_units one_pos hunits hfin]

theorem fUnits_ffmod : fUnits (ffmod a b) = Int.tmod (fUnits a) (fUnits b) := by
  obtain ⟨r, hfin, hr, e⟩ := ffmod_eq_fPack ha hb hz
  rw [e, fUnits_fPack _ (hfin.trans (by decide)), hr, fUnits, fUnits]
  cases fSign a <;> cases fSign b <;> simp [Int.tmod_eq_emod_of_nonneg]

end Remainder

/-- Settles O21: the remainder of two finite values is a multiple of the smaller unit and below both, so it needs no
rounding. -/
theorem remainderIsExact : Obligations.RemainderIsExact := by
  unfold Obligations.RemainderIsExact
  refine ⟨fun a b ha hb hz => ⟨fUnits_ffmod ha hb hz, ?_⟩, fun a b h => ?_, fun a b ha hb => ?_⟩
  · obtain ⟨r, hfin, -, e⟩ := ffmod_eq_fPack ha hb hz
    rw [e]
    exact ⟨fIsFinite_fPack _ hfin, fSign_fPack _ (hfin.trans (by decide))⟩
  · exact if_pos (by simpa [or_assoc] using h)
  · have hnan : fIsNaN b = false := by
      rw [fIsInf, beq_iff_eq] at hb
      exact decide_eq_false (by omega)
    have hzero : fIsZero b = false := by
      rw [fIsInf, beq_iff_eq] at hb
      rw [fIsZero, hb]; rfl
    simp [ffmod, fIsNaN_of_finite ha, fIsInf_of_finite ha, hb, hnan, hzero]

/-! ## The square root -/

/-- The bits from `k` down are found by trial: `acc` is a lower bound of the root, short of it by less than 2^k. -/
theorem isqrtBits_eq_sqrt {n acc k : Nat} (hlo : acc * acc ≤ n) (hhi : n < (acc + 2 ^ k) * (acc + 2 ^ k)) :
    isqrtBits n acc k = Nat.sqrt n := by
  induction k generalizing acc with
  | zero => exact Nat.eq_sqrt.mpr ⟨hlo, hhi⟩
  | succ k ih =>
    rw [isqrtBits]
    split
    · next h => exact ih h (by rwa [Nat.add_assoc, ← Nat.two_mul, ← pow_succ'])
    · next h => exact ih hlo (Nat.lt_of_not_le h)

theorem isqrt_eq_sqrt (n : Nat) : isqrt n = Nat.sqrt n := by
  refine isqrtBits_eq_sqrt (Nat.zero_le n) ?_
  rw [Nat.zero_add, ← pow_add]
  exact Nat.lt_log2_self.trans_le (Nat.pow_le_pow_right (by decide) (by omega))

theorem even_magUnits {m : Nat} (hm : 2 ^ 24 ≤ m) : magUnits m % 2 = 0 := by
  obtain ⟨e, he⟩ : ∃ e, m / 2 ^ 23 - 1 = e + 1 := ⟨m / 2 ^ 23 - 2, by omega⟩
  rw [magUnits, if_neg (by omega), he, pow_succ 2 e, ← mul_assoc, Nat.mul_mod_left]

/-- Far from 0 every midpoint is a whole number of units, so the nearest magnitude of a half-integer is that of
everything strictly between its two neighbours. -/
theorem NearestMag.of_half {r n : Nat} {v : ℝ} (h : NearestMag r ((2 * n + 1 : Nat) / 2 : ℝ)) (hn : 2 ^ 25 ≤ n)
    (hlo : n < v) (hhi : v < n + 1) : NearestMag r v := by
  have hr : 2 ^ 24 < r := by
    by_contra hsmall
    obtain ⟨hup, -⟩ := h.above (2 ^ 24 + 1) (by omega)
    have hle := magUnits_cast_le (Nat.le_of_not_lt hsmall)
    have h1 : magUnits (2 ^ 24) = 2 ^ 24 := by decide +kernel
    have h2 : magUnits (2 ^ 24 + 1) = 2 ^ 24 + 2 := by decide +kernel
    have hnR : (2 ^ 25 : ℝ) ≤ n := by exact_mod_cast hn
    rw [h1] at hle
    rw [h2] at hup
    push_cast at hle hup
    linarith
  have hcentre : (2 * ((2 * n + 1 : Nat) / 2) : ℝ) = (2 * n + 1 : Nat) := by ring
  obtain ⟨hup, -⟩ := h.above (r + 1) (Nat.lt_succ_self r)
  obtain ⟨hdown, -⟩ := h.below (r - 1) (by omega)
  rw [hcentre] at hup hdown
  have heven := even_magUnits (m := r) hr.le
  have hevenUp := even_magUnits (m := r + 1) (by omega)
  have hevenDown := even_magUnits (m := r - 1) (by omega)
  have hup' : 2 * n + 2 ≤ magUnits r + magUnits (r + 1) := by
    have : 2 * n + 1 ≤ magUnits r + magUnits (r + 1) := by exact_mod_cast hup
    omega
  have hdown' : magUnits (r - 1) + magUnits r ≤ 2 * n := by
    have : magUnits (r - 1) + magUnits r ≤ 2 * n + 1 := by exact_mod_cast hdown
    omega
  rify at hup' hdown'
  exact .of_neighbours (by linarith) (fun heq => by linarith) fun _ => ⟨by linarith, fun heq => by linarith⟩

/-- The root of `n` units times 2^149, in units, from the integer root and whether it is exact. -/
theorem nearestMag_sqrt {n : Nat} (hn : 2 ^ 50 ≤ n) :
    NearestMag (roundFree (2 * isqrt n + if isqrt n * isqrt n = n then 0 else 1) 2) (Real.sqrt n) := by
  rw [isqrt_eq_sqrt]
  have hnear := roundFree_nearest (2 * Nat.sqrt n + if Nat.sqrt n * Nat.sqrt n = n then 0 else 1) two_pos
  by_cases hexact : Nat.sqrt n * Nat.sqrt n = n
  · rw [if_pos hexact] at hnear ⊢
    have hroot : ((2 * Nat.sqrt n + 0 : Nat) / (2 : Nat) : ℝ) = Real.sqrt n := by
      rw [eq_comm, Real.sqrt_eq_iff_mul_self_eq (by positivity) (by positivity)]
      rify at hexact
      push_cast
      linarith
    rwa [hroot] at hnear
  · rw [if_neg hexact] at hnear ⊢
    refine hnear.of_half (Nat.le_sqrt.mpr hn) (lt_of_le_of_ne Real.nat_sqrt_le_real_sqrt fun heq => hexact ?_)
      Real.real_sqrt_lt_nat_sqrt_succ
    have hsquare := Real.mul_self_sqrt (Nat.cast_nonneg (α := ℝ) n)
    rw [← heq] at hsquare
    exact_mod_cast hsquare

theorem sqrt_real {a : F32} (hs : fSign a = false) :
    Real.sqrt (Claims.real a) = Real.sqrt ((fAbsUnits a * unitOne : Nat) : ℝ) / 2 ^ 149 := by
  rw [real_eq_signed, hs, signed, if_neg Bool.false_ne_true, unitOne, Nat.cast_mul, Nat.cast_pow, Nat.cast_ofNat,
    Real.sqrt_eq_iff_mul_self_eq (by positivity) (by positivity), div_mul_div_comm,
    Real.mul_self_sqrt (by positivity)]
  field_simp

theorem fsqrt_of_finite {a : F32} (ha : fIsFinite a = true) (hs : fSign a = false) (hz : fIsZero a = false) :
    fsqrt a = fRound false (2 * isqrt (fAbsUnits a * unitOne) +
      if isqrt (fAbsUnits a * unitOne) * isqrt (fAbsUnits a * unitOne) = fAbsUnits a * unitOne then 0 else 1) 2 := by
  simp [fsqrt, fIsNaN_of_finite ha, fIsInf_of_finite ha, hs, hz]

theorem fsqrt_zero {a : F32} (hz : fIsZero a = true) : fsqrt a = a := by
  have hnan : fIsNaN a = false := by
    rw [fIsZero, beq_iff_eq] at hz
    rw [fIsNaN, hz]; rfl
  simp [fsqrt, hnan, hz]

/-- The root of a finite value is far below the overflow threshold. -/
theorem sqrt_lt_threshold {a : F32} (ha : fIsFinite a = true) :
    Real.sqrt ((fAbsUnits a * unitOne : Nat) : ℝ) < 2 ^ 277 - 2 ^ 252 := by
  have hunits : fAbsUnits a < 2 ^ 277 := magUnits_infMag ▸ magUnits_strictMono ((fIsFinite_iff a).mp ha)
  have hsquare : fAbsUnits a * unitOne < (2 ^ 213) ^ 2 := by
    rw [unitOne, ← pow_mul, show 213 * 2 = 277 + 149 from rfl, pow_add]
    exact Nat.mul_lt_mul_of_pos_right hunits (by positivity)
  calc Real.sqrt ((fAbsUnits a * unitOne : Nat) : ℝ)
    _ < 2 ^ 213 := (Real.sqrt_lt' (by positivity)).mpr (by exact_mod_cast hsquare)
    _ ≤ 2 ^ 252 := pow_le_pow_right₀ one_le_two (by decide)
    _ = 2 ^ 253 - 2 ^ 252 := by rw [pow_succ (2 : ℝ) 252]; ring
    _ ≤ 2 ^ 277 - 2 ^ 252 := sub_le_sub_right (pow_le_pow_right₀ one_le_two (by decide)) _

theorem fsqrt_isNearest {a : F32} (ha : fIsFinite a = true) (hs : fSign a = false) :
    Claims.IsNearest (fsqrt a) (Real.sqrt (Claims.real a)) := by
  cases hz : fIsZero a
  · have hlarge : 2 ^ 50 ≤ fAbsUnits a * unitOne :=
      (by decide : 2 ^ 50 ≤ unitOne).trans (Nat.le_mul_of_pos_left _ (fAbsUnits_pos hz))
    have hnear := nearestMag_sqrt hlarge
    have hfin := hnear.lt_infMag_iff.mpr (sqrt_lt_threshold ha)
    rw [fsqrt_of_finite ha hs hz, sqrt_real hs, fRound, roundMag_of_lt hfin]
    exact hnear.isNearest (Real.sqrt_nonneg _) hfin false
  · have hroot : Real.sqrt (Claims.real a) = Claims.real a := by rw [real_of_zero hz, Real.sqrt_zero]
    rw [fsqrt_zero hz, hroot]
    exact isNearest_real ha

/-- Settles O20: the integer root in half units lies on the same side of every midpoint as the exact root. -/
theorem squareRootIsRoundedToNearest : Obligations.SquareRootIsRoundedToNearest := by
  unfold Obligations.SquareRootIsRoundedToNearest
  refine ⟨fun a ha hs => fsqrt_isNearest ha hs, by decide, by decide, fun a hs hz => ?_, fun a hnan => if_pos hnan⟩
  simp [fsqrt, hs, hz, canonicalNaN]

end Sys2Proof.Machine
end

section
/-! PROOFS. Ranges and exact values of the evaluator's arithmetic (41_pattern.md): the normalised coordinate, the clamp,
the inversion and the byte, and the kinds whose values are known. -/

namespace Sys2Proof.Machine

open Claims

/-! ## Ranges of rounded results -/

section Nearest
variable {r c : F32} {v : ℝ}

theorem isNearest_le (h : IsNearest r v) (hc : fIsFinite c = true) (hv : v ≤ real c) : real r ≤ real c := by
  obtain ⟨hle, -⟩ := h.2 c hc
  rw [abs_of_nonneg (by linarith : 0 ≤ real c - v)] at hle
  linarith [le_abs_self (real r - v)]

theorem isNearest_ge (h : IsNearest r v) (hc : fIsFinite c = true) (hv : real c ≤ v) : real c ≤ real r := by
  obtain ⟨hle, -⟩ := h.2 c hc
  rw [abs_of_nonpos (by linarith : real c - v ≤ 0)] at hle
  linarith [neg_abs_le (real r - v)]

end Nearest

theorem abs_real_lt_threshold {a : F32} (ha : fIsFinite a = true) : |real a| < 2 ^ 128 - 2 ^ 103 := by
  have hnear := (nearestMag_magUnits (fMag a)).lt_infMag_iff.mp ((fIsFinite_iff a).mp ha)
  rw [← fAbsUnits] at hnear
  rw [real_eq_signed, abs_signed, abs_of_nonneg (by positivity)]
  exact (div_units_lt_threshold_iff _).mpr hnear

/-- A real number that some finite pattern has. -/
def Representable (x : ℝ) : Prop := ∃ c : F32, fIsFinite c = true ∧ real c = x

/-- Every integer of at most 24 bits over a power of two down to the least unit. -/
theorem representable_div_two_pow {n : Int} (hn : |n| ≤ 2 ^ 24) {j : Nat} (hj : j ≤ 149) :
    Representable (n / 2 ^ j : ℝ) := by
  have habs : n.natAbs ≤ 2 ^ 24 := by rw [Int.abs_eq_natAbs] at hn; omega
  obtain ⟨m, hm⟩ := exists_magUnits (149 - j) habs
  have hfin := lt_infMag_of_units hm habs (by omega)
  refine ⟨fPack (decide (n < 0)) m, fIsFinite_fPack _ hfin, ?_⟩
  have hpow : (2 ^ 149 : ℝ) = 2 ^ (149 - j) * 2 ^ j := by rw [← pow_add, Nat.sub_add_cancel hj]
  rw [real_fPack _ (hfin.trans (by decide)), hm, Nat.cast_mul, Nat.cast_pow, Nat.cast_ofNat, hpow,
    mul_comm (n.natAbs : ℝ), mul_div_mul_left _ _ (by positivity), signed_div_right, signed_natAbs]

theorem representable_int {n : Int} (hn : |n| ≤ 2 ^ 24) : Representable n := by
  simpa using representable_div_two_pow hn (Nat.zero_le 149)

/-- A finite pattern with a value in [lo, hi]. -/
structure InRange (a : F32) (lo hi : ℝ) : Prop where
  finite : fIsFinite a = true
  ge : lo ≤ real a
  le : real a ≤ hi

theorem InRange.mono {a : F32} {lo hi lo' hi' : ℝ} (h : InRange a lo hi) (hlo : lo' ≤ lo) (hhi : hi ≤ hi') :
    InRange a lo' hi' := ⟨h.finite, hlo.trans h.ge, h.le.trans hhi⟩

section Rounds
variable {r : F32} {v lo hi : ℝ}

theorem isNearest_of_roundsTo (h : RoundsTo r v) (hlo : Representable lo) (hhi : Representable hi) (h1 : lo ≤ v)
    (h2 : v ≤ hi) : IsNearest r v := by
  obtain ⟨l, hl, rfl⟩ := hlo
  obtain ⟨u, hu, rfl⟩ := hhi
  obtain ⟨hl', -⟩ := abs_lt.mp (abs_real_lt_threshold hl)
  obtain ⟨-, hu'⟩ := abs_lt.mp (abs_real_lt_threshold hu)
  exact h.1 (abs_lt.mpr ⟨by linarith, by linarith⟩)

/-- Rounding does not leave an interval with representable ends. -/
theorem inRange_of_roundsTo (h : RoundsTo r v) (hlo : Representable lo) (hhi : Representable hi) (h1 : lo ≤ v)
    (h2 : v ≤ hi) : InRange r lo hi := by
  have hnear := isNearest_of_roundsTo h hlo hhi h1 h2
  obtain ⟨l, hl, rfl⟩ := hlo
  obtain ⟨u, hu, rfl⟩ := hhi
  exact ⟨hnear.1, isNearest_ge hnear hl h1, isNearest_le hnear hu h2⟩

/-- Rounding does not change a representable value. -/
theorem exact_of_roundsTo (h : RoundsTo r v) (hv : Representable v) : fIsFinite r = true ∧ real r = v := by
  have hrange := inRange_of_roundsTo h hv hv le_rfl le_rfl
  exact ⟨hrange.finite, le_antisymm hrange.le hrange.ge⟩

end Rounds

/-! ## Comparisons -/

theorem fIsFinite_iff_fOrder (v : F32) : fIsFinite v = true ↔ -(infMag : Int) < fOrder v ∧ fOrder v < infMag := by
  refine ⟨fOrder_bounds, fun h => (fIsFinite_iff v).mpr ?_⟩
  unfold fOrder at h
  split at h <;> omega

theorem fle_iff_fOrder {a b : F32} (ha : fIsNaN a = false) (hb : fIsNaN b = false) :
    fle a b = true ↔ fOrder a ≤ fOrder b := by simp [fle, ha, hb]

theorem fOrder_of_fle {a b : F32} (h : fle a b = true) : fIsNaN a = false ∧ fIsNaN b = false ∧ fOrder a ≤ fOrder b := by
  simpa [fle, and_assoc] using h

theorem fOrder_of_flt {a b : F32} (h : flt a b = true) : fIsNaN a = false ∧ fIsNaN b = false ∧ fOrder a < fOrder b := by
  simpa [flt, and_assoc] using h

/-- What lies between two finite patterns is finite, and in the range of their values. -/
theorem inRange_of_fle {a b v : F32} (ha : fIsFinite a = true) (hb : fIsFinite b = true) (hav : fle a v = true)
    (hvb : fle v b = true) : InRange v (real a) (real b) := by
  obtain ⟨-, -, hlo⟩ := fOrder_of_fle hav
  obtain ⟨-, -, hhi⟩ := fOrder_of_fle hvb
  obtain ⟨ha', -⟩ := fOrder_bounds ha
  obtain ⟨-, hb'⟩ := fOrder_bounds hb
  have hv : fIsFinite v = true := (fIsFinite_iff_fOrder v).mpr ⟨by omega, by omega⟩
  exact ⟨hv, (fle_iff_real ha hv).mp hav, (fle_iff_real hv hb).mp hvb⟩

theorem fle_of_inRange {a b v : F32} (ha : fIsFinite a = true) (hb : fIsFinite b = true)
    (hv : InRange v (real a) (real b)) : fle a v = true ∧ fle v b = true :=
  ⟨(fle_iff_real ha hv.finite).mpr hv.ge, (fle_iff_real hv.finite hb).mpr hv.le⟩

/-! ## The constants of R160 -/

/-- The value of a pattern whose units are known. -/
theorem real_of_fUnits {c : F32} {n : Int} {j : Nat} (h : fUnits c * 2 ^ j = n * 2 ^ 149) : real c = n / 2 ^ j := by
  rw [real_eq, div_eq_div_iff (by positivity) (by positivity)]
  exact_mod_cast h

@[simp] theorem real_fZero : real fZero = 0 := real_of_zero rfl

@[simp] theorem real_fOne : real fOne = 1 := by
  rw [real_of_fUnits (n := 1) (j := 0) (by decide +kernel)]; norm_num

@[simp] theorem real_fHalf : real fHalf = 1 / 2 := by
  rw [real_of_fUnits (n := 1) (j := 1) (by decide +kernel)]; norm_num

@[simp] theorem real_fTwo : real fTwo = 2 := by
  rw [real_of_fUnits (n := 2) (j := 0) (by decide +kernel)]; norm_num

@[simp] theorem real_f128 : real f128 = 128 := by
  rw [real_of_fUnits (n := 128) (j := 0) (by decide +kernel)]; norm_num

@[simp] theorem real_f255 : real f255 = 255 := by
  rw [real_of_fUnits (n := 255) (j := 0) (by decide +kernel)]; norm_num

theorem inRange_unit_iff (v : F32) : InRange v 0 1 ↔ fle fZero v = true ∧ fle v fOne = true := by
  rw [← real_fZero, ← real_fOne]
  exact ⟨fle_of_inRange rfl rfl, fun h => inRange_of_fle rfl rfl h.1 h.2⟩

theorem representable_zero : Representable 0 := ⟨fZero, rfl, real_fZero⟩
theorem representable_one : Representable 1 := ⟨fOne, rfl, real_fOne⟩

/-! ## Step 1: the normalised coordinate (R162) -/

theorem fIsZero_of_real_ne {a : F32} (h : real a ≠ 0) : fIsZero a = false :=
  Bool.eq_false_iff.mpr fun hz => h (real_of_zero hz)

theorem cvtF32_natCast {n : Nat} (hn : n ≤ 2 ^ 24) : fIsFinite (cvtF32 n) = true ∧ real (cvtF32 n) = n := by
  have h := cvtF32_exact (n := n) (by rw [Nat.abs_cast]; exact_mod_cast hn)
  rwa [Int.cast_natCast] at h

theorem normalise_roundsTo {c size : Nat} (hc : c < size) (hs : size ≤ 2 ^ 20) :
    RoundsTo (normalise c size) (c / size : ℝ) := by
  obtain ⟨hcf, hcr⟩ := cvtF32_natCast (n := c) (by omega)
  obtain ⟨hsf, hsr⟩ := cvtF32_natCast (n := size) (by omega)
  have hne : (size : ℝ) ≠ 0 := by exact_mod_cast (by omega : size ≠ 0)
  have hround := fdiv_roundsTo hcf hsf (fIsZero_of_real_ne (hsr.trans_ne hne))
  rwa [hcr, hsr] at hround

/-- The greatest quotient of a canvas of 2^20 columns. -/
theorem div_le_of_lt {c size : Nat} (hc : c < size) (hs : size ≤ 2 ^ 20) :
    (c / size : ℝ) ≤ ((2 ^ 20 - 1 : Int) : ℝ) / 2 ^ 20 := by
  have hsize : (0 : ℝ) < size := by exact_mod_cast (by omega : 0 < size)
  have hc' : (c : ℝ) + 1 ≤ size := by exact_mod_cast hc
  have hs' : (size : ℝ) ≤ 2 ^ 20 := by exact_mod_cast hs
  rw [div_le_div_iff₀ hsize (by positivity)]
  push_cast
  nlinarith

theorem normalise_inRange_below {c size : Nat} (hc : c < size) (hs : size ≤ 2 ^ 20) :
    InRange (normalise c size) 0 (((2 ^ 20 - 1 : Int) : ℝ) / 2 ^ 20) :=
  inRange_of_roundsTo (normalise_roundsTo hc hs) representable_zero
    (representable_div_two_pow (by decide) (by decide)) (by positivity) (div_le_of_lt hc hs)

theorem normalise_inRange {c size : Nat} (hc : c < size) (hs : size ≤ 2 ^ 20) : InRange (normalise c size) 0 1 :=
  (normalise_inRange_below hc hs).mono le_rfl (by norm_num)

theorem normalise_isNearest {c size : Nat} (hc : c < size) (hs : size ≤ 2 ^ 20) :
    IsNearest (normalise c size) (c / size : ℝ) :=
  isNearest_of_roundsTo (normalise_roundsTo hc hs) representable_zero
    (representable_div_two_pow (by decide) (by decide)) (by positivity) (div_le_of_lt hc hs)

/-- Over a power of two the coordinate is exact. -/
theorem normalise_exact {c j : Nat} (hc : c < 2 ^ j) (hj : j ≤ 20) : real (normalise c (2 ^ j)) = c / 2 ^ j := by
  have hs : 2 ^ j ≤ 2 ^ 20 := Nat.pow_le_pow_right (by decide) hj
  have hround := normalise_roundsTo hc hs
  have hvalue : ((c : Int) : ℝ) / 2 ^ j = c / (2 ^ j : Nat) := by push_cast; rfl
  rw [← hvalue] at hround
  obtain ⟨-, h⟩ := exact_of_roundsTo hround
    (representable_div_two_pow (by rw [Nat.abs_cast]; exact_mod_cast (by omega : c ≤ 2 ^ 24)) (by omega))
  rw [h]; rfl

theorem fUnits_cast (a : F32) : (fUnits a : ℝ) = real a * 2 ^ 149 := by
  rw [real_eq, div_mul_cancel₀ _ (by positivity)]

theorem le_fUnits {a : F32} {n : Int} (h : (n : ℝ) ≤ real a) : n * 2 ^ 149 ≤ fUnits a := by
  have hunits : (n : ℝ) * 2 ^ 149 ≤ fUnits a := by rw [fUnits_cast]; gcongr
  exact_mod_cast hunits

theorem fUnits_lt {a : F32} {n : Int} (h : real a < n) : fUnits a < n * 2 ^ 149 := by
  have hunits : (fUnits a : ℝ) < n * 2 ^ 149 := by rw [fUnits_cast]; gcongr
  exact_mod_cast hunits

/-- Settles O25: the quotient is at most 1 − 2^−20, which is representable. -/
theorem normalisedCoordinateIsBelowOne : Obligations.NormalisedCoordinateIsBelowOne := by
  unfold Obligations.NormalisedCoordinateIsBelowOne
  intro c size hc hs
  have hrange := normalise_inRange_below hc hs
  have hlo := le_fUnits (n := 0) (by exact_mod_cast hrange.ge)
  have hhi := fUnits_lt (n := 1) (lt_of_le_of_lt hrange.le (by norm_num))
  exact ⟨hrange.finite, by omega, by omega, normalise_isNearest hc hs⟩

/-! ## Steps 4 and 5: clamp, inversion and byte (R175-R177) -/

theorem clampUnit_of_lt {v : F32} (h : flt v fZero = true) : clampUnit v = fZero := if_pos h

theorem clampUnit_of_gt {v : F32} (h : flt fOne v = true) : clampUnit v = fOne := by
  have hone : fOrder fOne = 0x3F800000 := rfl
  have hzero : fOrder fZero = 0 := rfl
  obtain ⟨-, -, hgt⟩ := fOrder_of_flt h
  have hlt : ¬flt v fZero = true := fun hlt => by
    obtain ⟨-, -, hneg⟩ := fOrder_of_flt hlt
    omega
  rw [clampUnit, if_neg hlt, if_pos h]

theorem clampUnit_of_finite {v : F32} (h : fIsFinite v = true) :
    clampUnit v = if real v < 0 then fZero else if 1 < real v then fOne else v := by
  simp only [clampUnit, flt_iff_real (b := fZero) h rfl, flt_iff_real (a := fOne) rfl h, real_fZero, real_fOne]

theorem clampUnit_of_inRange {v : F32} (h : InRange v 0 1) : clampUnit v = v := by
  rw [clampUnit_of_finite h.finite, if_neg (not_lt.mpr h.ge), if_neg (not_lt.mpr h.le)]

theorem clampUnit_inRange {v : F32} (h : fIsFinite v = true) : InRange (clampUnit v) 0 1 := by
  rw [clampUnit_of_finite h]
  split
  · exact ⟨rfl, real_fZero.ge, by rw [real_fZero]; exact zero_le_one⟩
  · split
    · exact ⟨rfl, by rw [real_fOne]; exact zero_le_one, real_fOne.le⟩
    · exact ⟨h, not_lt.mp ‹_›, not_lt.mp ‹_›⟩

theorem invertUnit_true_roundsTo {v : F32} (h : InRange v 0 1) : RoundsTo (invertUnit true v) (1 - real v) := by
  have hround := fsub_roundsTo (a := fOne) rfl h.finite
  rwa [real_fOne] at hround

theorem invertUnit_inRange {v : F32} (h : InRange v 0 1) (inv : Bool) : InRange (invertUnit inv v) 0 1 := by
  cases inv
  · exact h
  · exact inRange_of_roundsTo (invertUnit_true_roundsTo h) representable_zero representable_one (by linarith [h.le])
      (by linarith [h.ge])

theorem mul_f255_inRange {v : F32} (h : InRange v 0 1) : InRange (fmul v f255) 0 255 := by
  have hround := fmul_roundsTo h.finite (b := f255) rfl
  rw [real_f255] at hround
  exact inRange_of_roundsTo hround representable_zero ⟨f255, rfl, real_f255⟩ (by linarith [h.ge]) (by linarith [h.le])

theorem floor_int_div (n : Int) (d : Nat) : ⌊(n / d : ℝ)⌋ = n / d := by
  rw [Int.floor_div_natCast, Int.floor_intCast]

theorem fFloor_eq_floor (v : F32) : fFloor v = ⌊real v⌋ := (floor_int_div (fUnits v) unitOne).symm

/-- The byte of a value in [0, 1], whichever slot its draw would have. -/
theorem quantise_toNat {v : F32} (h : InRange v 0 1) (k : Nat) :
    ((quantise v k).toNat : Int) = ⌊real (fmul v f255)⌋ := by
  have hrange := mul_f255_inRange h
  have hlo : 0 ≤ ⌊real (fmul v f255)⌋ := Int.floor_nonneg.mpr hrange.ge
  have hhi : ⌊real (fmul v f255)⌋ ≤ 255 := by
    rw [← Int.floor_intCast (R := ℝ) 255]; exact Int.floor_le_floor (by exact_mod_cast hrange.le)
  rw [quantise_of_finite hrange.finite, fFloor_eq_floor]
  exact byteInt_intByte hlo hhi

theorem quantise_of_isNaN {v : F32} (h : fIsNaN v = true) (k : Nat) : quantise v k = byteDraw k := by
  obtain ⟨-, hmul, -⟩ := operations_of_isNaN (b := f255) (.inl h)
  rw [quantise, hmul]
  exact if_neg (by decide)

/-- The parameters of the inversion's examples. -/
def inversionExample : PatternParams := ⟨42#32, 0#32, 0x3F800000#32, 0#32, true, 128, 64, .default⟩

/-- The examples of the inversion: a pixel and its intensity. -/
def inversionExamples : List ((Nat × Nat) × Byte) :=
  [((0, 0), 255#8), ((1, 0), 253#8), ((127, 0), 1#8), ((64, 32), 127#8)]

theorem inversionExamples_slot_zero : ∀ q ∈ inversionExamples,
    DrawFreePixel inversionExample q.1.1 q.1.2 ∧ evaluate inversionExample 0 q.1.1 q.1.2 = q.2 := by decide +kernel

theorem inversionExamples_value (d : Nat) : ∀ q ∈ inversionExamples, evaluate inversionExample d q.1.1 q.1.2 = q.2 := by
  intro q hq
  obtain ⟨hfree, hvalue⟩ := inversionExamples_slot_zero q hq
  rw [evaluate_of_drawFree rfl hfree, hvalue]

/-- Settles O33: the clamp by its three branches, the inversion and the product with 255 by rounding inside [0, 1] and
[0, 255]; the examples are draw-free pixels. -/
theorem clampInvertQuantiseStayInRange : Obligations.ClampInvertQuantiseStayInRange := by
  unfold Obligations.ClampInvertQuantiseStayInRange
  refine ⟨fun v hv => ?clamp, fun v h => clampUnit_of_lt h, fun v h => clampUnit_of_gt h, fun _ => ⟨rfl, rfl⟩,
    fun v hlo hhi => ?nearest, fun inv v hlo hhi => ?inverted, fun v k hlo hhi => ?byte, fun v k hnan => ?nan,
    fun d => ?examples⟩
  case clamp =>
    obtain ⟨hlo, hhi⟩ := (inRange_unit_iff _).mp (clampUnit_inRange hv)
    exact ⟨hlo, hhi, fun hlo' hhi' => clampUnit_of_inRange ((inRange_unit_iff v).mpr ⟨hlo', hhi'⟩)⟩
  case nearest =>
    have h := (inRange_unit_iff v).mpr ⟨hlo, hhi⟩
    exact isNearest_of_roundsTo (invertUnit_true_roundsTo h) representable_zero representable_one (by linarith [h.le])
      (by linarith [h.ge])
  case inverted => exact (inRange_unit_iff _).mp (invertUnit_inRange ((inRange_unit_iff v).mpr ⟨hlo, hhi⟩) inv)
  case byte => exact quantise_toNat ((inRange_unit_iff v).mpr ⟨hlo, hhi⟩) k
  case nan => rw [quantise_of_isNaN hnan, byteDraw, BitVec.extractLsb'_toNat, Nat.shiftRight_zero]
  case examples =>
    have hvalue := inversionExamples_value d
    simp only [inversionExamples, List.forall_mem_cons] at hvalue
    obtain ⟨h0, h1, h127, h64, -⟩ := hvalue
    exact ⟨h0, h1, h127, h64⟩

/-! ## Kinds whose values are known -/

/-- With the overlay off a raw value in [0, 1] needs no clamp. -/
theorem evaluate_of_inRange {p : PatternParams} {d x y : Nat} (hns : flt fZero p.nscale = false)
    (h : InRange (rawValue p d x y) 0 1) :
    evaluate p d x y = quantise (invertUnit p.invert (rawValue p d x y)) (d + 4) := by
  rw [evaluate, overlay_off hns, clampUnit_of_inRange h]

/-- A coordinate over a power of two times 255 is exact, so its byte is the floor of the exact product. -/
theorem quantise_normalise {c j : Nat} (hc : c < 2 ^ j) (hj : j ≤ 10) (k : Nat) :
    (quantise (normalise c (2 ^ j)) k).toNat = 255 * c / 2 ^ j := by
  have hs : 2 ^ j ≤ 2 ^ 10 := Nat.pow_le_pow_right (by decide) hj
  have hrange := normalise_inRange hc (hs.trans (by decide))
  have hround := fmul_roundsTo hrange.finite (b := f255) rfl
  have hvalue : (c / 2 ^ j * 255 : ℝ) = ((255 * c : Int) : ℝ) / 2 ^ j := by push_cast; ring
  rw [real_f255, normalise_exact hc (hj.trans (by decide)), hvalue] at hround
  obtain ⟨-, hexact⟩ := exact_of_roundsTo hround
    (representable_div_two_pow (abs_le.mpr ⟨by omega, by omega⟩) (hj.trans (by decide)))
  have hfloor := quantise_toNat hrange k
  rw [hexact] at hfloor
  have hdiv : ⌊((255 * c : Int) : ℝ) / 2 ^ j⌋ = ((255 * c / 2 ^ j : Nat) : Int) := by
    have := floor_int_div (255 * c : Int) (2 ^ j)
    push_cast at this ⊢
    exact this
  exact_mod_cast hfloor.trans hdiv

/-- Settles O28: on powers of two the coordinate and its product with 255 are exact. -/
theorem gradientKindsAreExactOnTheDefaultCanvas : Obligations.GradientKindsAreExactOnTheDefaultCanvas := by
  unfold Obligations.GradientKindsAreExactOnTheDefaultCanvas
  intro p d x y hw hh hx hy hinv hns
  have hw : p.width = 2 ^ 7 := hw
  have hh : p.height = 2 ^ 6 := hh
  refine ⟨fun hkind => ?_, fun hkind => ?_⟩
  · have hraw : rawValue p d x y = normalise x (2 ^ 7) := by rw [rawValue, hkind, hw]; rfl
    rw [evaluate_of_inRange hns (by rw [hraw]; exact normalise_inRange hx (by decide)), hraw, hinv, invertUnit_false]
    exact quantise_normalise hx (by decide) _
  · have hraw : rawValue p d x y = normalise y (2 ^ 6) := by rw [rawValue, hkind, hh]; rfl
    rw [evaluate_of_inRange hns (by rw [hraw]; exact normalise_inRange hy (by decide)), hraw, hinv, invertUnit_false]
    exact quantise_normalise hy (by decide) _

/-- Dividing a byte by 255 and multiplying by 255 again rounds to at least the byte and below the next (R172). -/
theorem noiseScalar_byte : ∀ n : Byte, fIsFinite (fmul (clampUnit (noiseScalar n)) f255) = true ∧
    intByte (fFloor (fmul (clampUnit (noiseScalar n)) f255)) = n := by decide +kernel

/-- Settles O29: the product of the rounded quotient with 255 has the byte as its floor, for each of the 256 bytes. -/
theorem noiseKindGivesTheNoiseByte : Obligations.NoiseKindGivesTheNoiseByte := by
  unfold Obligations.NoiseKindGivesTheNoiseByte
  intro p d x y hkind hinv hns
  have hraw : rawValue p d x y = noiseScalar (hashNoise (BitVec.ofNat 32 x) (BitVec.ofNat 32 y) p.seed) := by
    rw [rawValue, hkind, ← BitVec.ofInt_natCast, ← BitVec.ofInt_natCast]; rfl
  obtain ⟨hfin, hbyte⟩ := noiseScalar_byte (hashNoise (BitVec.ofNat 32 x) (BitVec.ofNat 32 y) p.seed)
  rw [evaluate, overlay_off hns, hinv, invertUnit_false, hraw, quantise_of_finite hfin, hbyte]

/-! ## Kinds 4 to 7 -/

/-- The scaled sum of an amplitude in −64 … 64 is exact (R168-R170). -/
theorem real_fromAmplitude {t : Int} (hlo : -64 ≤ t) (hhi : t ≤ 64) :
    fIsFinite (fromAmplitude t) = true ∧ real (fromAmplitude t) = ((t + 64 : Int) : ℝ) / 128 := by
  have hsmall : |t + 64| ≤ 2 ^ 24 := abs_le.mpr ⟨by omega, by omega⟩
  obtain ⟨hcf, hcr⟩ := cvtF32_exact hsmall
  have hround := fdiv_roundsTo hcf (b := f128) rfl rfl
  have hpow : (128 : ℝ) = 2 ^ 7 := by norm_num
  rw [hcr, real_f128, hpow] at hround
  rw [hpow]
  exact exact_of_roundsTo hround (representable_div_two_pow hsmall (by decide))

/-- The scaled product of two amplitudes is an amplitude (R170). -/
theorem tdiv_mul_bounds {a b : Int} (ha : -64 ≤ a ∧ a ≤ 64) (hb : -64 ≤ b ∧ b ≤ 64) :
    -64 ≤ tdiv (a * b) 64 ∧ tdiv (a * b) 64 ≤ 64 := by
  have habs : (tdiv (a * b) 64).natAbs = a.natAbs * b.natAbs / 64 := by
    rw [tdiv, Int.natAbs_tdiv, Int.natAbs_mul]; rfl
  have hle : a.natAbs * b.natAbs ≤ 64 * 64 := Nat.mul_le_mul (by omega) (by omega)
  omega

/-- With a legal table kinds 4, 5 and 6 scale an amplitude, whatever angles are drawn. -/
theorem rawValue_amplitude {p : PatternParams} (htable : sineTableOk p.block.sineTable = true)
    (hkind : p.kind ∈ [4#32, 5#32, 6#32]) (d x y : Nat) :
    ∃ t, -64 ≤ t ∧ t ≤ 64 ∧ rawValue p d x y = fromAmplitude t := by
  simp only [List.mem_cons, List.not_mem_nil, or_false] at hkind
  rcases hkind with h | h | h
  · obtain ⟨hlo, hhi⟩ := sineEntry_bounds htable (truncAngle (fmul (fmul (normalise x p.width) fSixtyFour) p.freq) d)
    exact ⟨_, hlo, hhi, by rw [rawValue, h]; rfl⟩
  · obtain ⟨hlo, hhi⟩ := sineEntry_bounds htable
      (truncAngle (fadd (fmul (fmul (normalise y p.height) fSixtyFour) p.freq) fSixteen) d)
    exact ⟨_, hlo, hhi, by rw [rawValue, h]; rfl⟩
  · obtain ⟨hlo, hhi⟩ := tdiv_mul_bounds
      (sineEntry_bounds htable (truncAngle (fmul (fmul (normalise x p.width) fThirtyTwo) p.freq) d))
      (sineEntry_bounds htable (truncAngle (fmul (fmul (normalise y p.height) fThirtyTwo) p.freq) (d + 1)))
    exact ⟨_, hlo, hhi, by rw [rawValue, h]; rfl⟩

/-- Kind 7 has the raw values 0.0 and 1.0. -/
theorem rawCheckerboard_cases (nx ny f : F32) (d : Nat) :
    rawCheckerboard nx ny f d = fZero ∨ rawCheckerboard nx ny f d = fOne := by
  unfold rawCheckerboard
  dsimp only
  split
  · exact .inr rfl
  · exact .inl rfl

theorem quantise_fZero (k : Nat) : quantise fZero k = 0#8 :=
  (quantise_of_finite (by decide) k).trans (by decide)

theorem quantise_fOne (k : Nat) : quantise fOne k = 255#8 :=
  (quantise_of_finite (by decide +kernel) k).trans (by decide +kernel)

theorem invertUnit_binary {v : F32} (h : v = fZero ∨ v = fOne) (inv : Bool) :
    invertUnit inv v = fZero ∨ invertUnit inv v = fOne := by
  rcases h with rfl | rfl <;> revert inv <;> decide +kernel

/-- Settles O30: a legal amplitude is scaled exactly, and 0.0 and 1.0 stay so through inversion and become 0 and 255. -/
theorem waveAndCheckerboardKindsTakeTheirValues : Obligations.WaveAndCheckerboardKindsTakeTheirValues := by
  unfold Obligations.WaveAndCheckerboardKindsTakeTheirValues
  refine ⟨fun p d x y htable hkind => ?wave, fun p d x y hkind hns => ?checkerboard⟩
  case wave =>
    obtain ⟨t, hlo, hhi, hraw⟩ := rawValue_amplitude htable hkind d x y
    obtain ⟨-, hreal⟩ := real_fromAmplitude hlo hhi
    refine ⟨(t + 64).toNat, by omega, ?_⟩
    rw [hraw, hreal]
    congr 1
    exact_mod_cast (Int.toNat_of_nonneg (by omega : 0 ≤ t + 64)).symm
  case checkerboard =>
    have hraw : rawValue p d x y = fZero ∨ rawValue p d x y = fOne := by
      rw [rawValue, hkind]; exact rawCheckerboard_cases _ _ _ _
    have hunit : InRange (rawValue p d x y) 0 1 := by
      rw [inRange_unit_iff]
      rcases hraw with h | h <;> rw [h] <;> decide
    rw [evaluate_of_inRange hns hunit]
    rcases invertUnit_binary hraw p.invert with h | h <;> rw [h]
    · exact .inl (quantise_fZero _)
    · exact .inr (quantise_fOne _)

end Sys2Proof.Machine
end

section
/-! PROOFS. The evolution ranges and the manual frequency of 49_host_animator.md, and the kinds of 41_pattern.md written
out as formulas. -/

namespace Sys2Proof.Machine

open Claims

/-! ## The evolution ranges (R255-R257) -/

theorem frequency_bounds : ∀ k < 100, fle fHalf (fadd fHalf (fdiv (cvtF32 (k : Nat)) fFifty)) = true ∧
    fle (fadd fHalf (fdiv (cvtF32 (k : Nat)) fFifty)) 0x401EB852#32 = true := by decide +kernel

theorem noiseScale_bounds : ∀ k < 50, fle fZero (fdiv (cvtF32 (k : Nat)) f1000) = true ∧
    fle (fdiv (cvtF32 (k : Nat)) f1000) 0x3D48B439#32 = true := by decide +kernel

theorem mutatedKind_toNat (r : Word) : (mutatedKind r).toNat = r.toNat / 100 % 10 := by
  rw [mutatedKind, BitVec.toNat_ofNat]; omega

/-- Settles O59: the formulas see the draw modulo 100 and modulo 50, and each of their values is in the range. -/
theorem evolutionStaysInItsRanges : Obligations.EvolutionStaysInItsRanges := by
  unfold Obligations.EvolutionStaysInItsRanges
  refine ⟨fun r => ?_, by decide +kernel, by decide +kernel, by decide +kernel⟩
  obtain ⟨hflo, hfhi⟩ := frequency_bounds (r.toNat % 100) (Nat.mod_lt _ (by decide))
  obtain ⟨hnlo, hnhi⟩ := noiseScale_bounds (r.toNat % 50) (Nat.mod_lt _ (by decide))
  refine ⟨rfl, rfl, hflo, hfhi, hnlo, hnhi, ?_, mutatedKind_toNat r⟩
  rw [mutatedKind_toNat]
  exact Nat.mod_lt _ (by decide)

/-! ## The manual frequency (R262, R263) -/

theorem clampFrequency_of_not_fle {f : F32} (h : fle fTenth f = false) : clampFrequency f = fTenth := by
  simp [clampFrequency, h]

theorem clampFrequency_of_gt {f : F32} (h : flt fFour f = true) : clampFrequency f = fFour := by
  have hfour : fOrder fFour = 0x40800000 := rfl
  have htenth : fOrder fTenth = 0x3DCCCCCD := rfl
  obtain ⟨-, hnan, hgt⟩ := fOrder_of_flt h
  have hfle : fle fTenth f = true := (fle_iff_fOrder rfl hnan).mpr (by omega)
  simp [clampFrequency, hfle, h]

theorem clampFrequency_of_bounds {f : F32} (hlo : fle fTenth f = true) (hhi : fle f fFour = true) :
    clampFrequency f = f := by
  obtain ⟨-, -, hle⟩ := fOrder_of_fle hhi
  have hflt : flt fFour f = false := Bool.eq_false_iff.mpr fun h => by
    obtain ⟨-, -, hlt⟩ := fOrder_of_flt h
    omega
  simp [clampFrequency, hlo, hflt]

/-- A value at least 0.1 is at most 4.0 or above it: it is no NaN. -/
theorem fle_fFour_or_flt {f : F32} (h : fle fTenth f = true) : fle f fFour = true ∨ flt fFour f = true := by
  obtain ⟨-, hnan, -⟩ := fOrder_of_fle h
  have hfour : fIsNaN fFour = false := rfl
  rcases le_or_gt (fOrder f) (fOrder fFour) with hle | hlt
  · exact .inl ((fle_iff_fOrder hnan hfour).mpr hle)
  · exact .inr (by simp [flt, hnan, hfour, hlt])

theorem clampFrequency_bounds (f : F32) :
    fle fTenth (clampFrequency f) = true ∧ fle (clampFrequency f) fFour = true := by
  cases hlo : fle fTenth f
  · rw [clampFrequency_of_not_fle hlo]; decide
  · rcases fle_fFour_or_flt hlo with hhi | hgt
    · rw [clampFrequency_of_bounds hlo hhi]; exact ⟨hlo, hhi⟩
    · rw [clampFrequency_of_gt hgt]; decide

section Procedure
variable {s : State} {rest : List HostOp} (hidle : s.busy = false)
include hidle

/-- After a read of FREQ, the stepped value is on its way back (R262, R263). -/
theorem step_stepFrequency_of_idle {up : Bool} {v : Word} {reads : List (Option Word)}
    (hp : s.program = .compute (.stepFrequency up) :: rest) (hreads : s.received = some v :: reads) :
    step s = .next { s with
      program := opWr .freq (steppedFrequency up v) :: rest
      polls := s.polls - 1
      draws := s.draws + 1 } := by
  rw [step_op_of_idle hidle hp]
  simp [hostOp, hostCalc, State.lastRead, hreads, State.prepend, State.nextSlot]

/-- Four steps: the call, the read of FREQ, the step and the write of FREQ. -/
theorem run_call_stepFrequency {p : Procedure} {up : Bool}
    (hexpand : ∀ time, expandProcedure p time = [opRd .freq, .compute (.stepFrequency up)])
    (hp : s.program = .call p :: rest) :
    Host.Core.run Sys2Proof.core 4 s = .next { s with
      freq := steppedFrequency up s.freq
      program := rest
      polls := s.polls - 4
      draws := s.draws + 2
      received := some s.freq :: s.received } := by
  have hcall := step_call_of_idle hidle hp
  rw [hexpand] at hcall
  calc Host.Core.run Sys2Proof.core 4 s
    _ = _ := run_next hcall 3
    _ = _ := run_next (step_opRd_of_idle (by exact hidle) rfl) 2
    _ = _ := run_next (step_stepFrequency_of_idle (by exact hidle) rfl rfl) 1
    _ = _ := run_next (step_opWr_of_idle (by exact hidle) rfl) 0

end Procedure

/-- Settles O58: the procedure reads FREQ and writes the clamped step back; the clamp's three branches are a NaN or a
value below 0.1, one above 4.0, and the rest. -/
theorem manualFrequencyStaysInBounds : Obligations.ManualFrequencyStaysInBounds := by
  unfold Obligations.ManualFrequencyStaysInBounds
  refine ⟨fun s rest up hidle hp => ?_, fun f hlo hhi => clampFrequency_of_bounds hlo hhi,
    fun f h => clampFrequency_of_gt h, fun f h => clampFrequency_of_not_fle h⟩
  have hexpand : ∀ time, expandProcedure (if up then .increaseFrequency else .decreaseFrequency) time =
      [opRd .freq, .compute (.stepFrequency up)] := by cases up <;> exact fun _ => rfl
  obtain ⟨hlo, hhi⟩ := clampFrequency_bounds (if up then fadd s.freq fTenth else fsub s.freq fTenth)
  exact ⟨4, _, run_call_stepFrequency hidle hexpand hp, rfl, rfl, hlo, hhi, by simp [State.SameBlock]⟩

/-! ## The kinds as formulas (41_pattern.md R163-R173) -/

theorem patternKind_eq (kind : Word) : patternKind kind =
    if kind = 1#32 then .vertical else if kind = 2#32 then .radial else if kind = 3#32 then .diagonal
    else if kind = 4#32 then .sine else if kind = 5#32 then .cosine else if kind = 6#32 then .interference
    else if kind = 7#32 then .checkerboard else if kind = 8#32 then .noise else if kind = 9#32 then .spiral
    else .horizontal := by
  simp only [BitVec.toNat_eq]
  unfold patternKind
  split <;> simp_all

theorem word_getLsbD_zero (n : Int) : (word n).getLsbD 0 = decide (n % 2 = 1) := by
  rw [word, ← BitVec.testBit_toNat, BitVec.toNat_ofInt, Nat.testBit_zero, decide_eq_decide]
  omega

/-- The two cells of a checkerboard differ in colour where the difference of their coordinates is odd (R171). -/
theorem rawCheckerboard_eq (nx ny f : F32) (d : Nat) : rawCheckerboard nx ny f d =
    if (truncS32 (fmul (fmul nx fEight) f) d - truncS32 (fmul (fmul ny fEight) f) (d + 1)) % 2 = 0 then fZero
    else fOne := by
  unfold rawCheckerboard
  dsimp only
  generalize truncS32 (fmul (fmul nx fEight) f) d = cx
  generalize truncS32 (fmul (fmul ny fEight) f) (d + 1) = cy
  have hparity : ((word cx ^^^ word cy).getLsbD 0 = true) ↔ ¬(cx - cy) % 2 = 0 := by
    rw [BitVec.getLsbD_xor, word_getLsbD_zero, word_getLsbD_zero, bne_iff_ne, ne_eq, decide_eq_decide]
    omega
  simp only [hparity, ite_not]

theorem rawNoise_eq (x y : Nat) (seed : Word) :
    rawNoise x y seed = noiseScalar (hashNoise (BitVec.ofNat 32 x) (BitVec.ofNat 32 y) seed) := by
  rw [rawNoise, word, word, BitVec.ofInt_natCast, BitVec.ofInt_natCast]

/-- Settles O26: each kind's raw value is its definition unfolded, kinds 7 and 8 by the two lemmas above. -/
theorem patternKindsFollowTheirFormulas : Obligations.PatternKindsFollowTheirFormulas := by
  unfold Obligations.PatternKindsFollowTheirFormulas
  refine ⟨fun p d x y => ⟨?_, rfl⟩, rfl, by decide +kernel⟩
  simp only [rawValue, patternKind_eq]
  split_ifs
  · rfl
  · rfl
  · rfl
  · rfl
  · rfl
  · rfl
  · exact (rawCheckerboard_eq _ _ p.freq d).trans (if_pos ‹_›)
  · exact (rawCheckerboard_eq _ _ p.freq d).trans (if_neg ‹_›)
  · exact rawNoise_eq x y p.seed
  · rfl
  · rfl

end Sys2Proof.Machine
end

section
/-! PROOF. The arctangent: its series, the enclosures and the default ATAN2_F32 (O22). -/

namespace Sys2Proof.Machine

open Finset Real

/-- The enclosure's ends lie on the two sides of a real number. -/
structure Enclosure.Contains (e : Enclosure) (v : ℝ) : Prop where
  lo_le : (e.lo : ℝ) ≤ v
  le_hi : v ≤ (e.hi : ℝ)

theorem Enclosure.Contains.encloseDiff {e f : Enclosure} {v w : ℝ} (he : e.Contains v) (hf : f.Contains w) (a b : Nat) :
    (encloseDiff a e b f).Contains (a * v - b * w) := by
  refine ⟨?_, ?_⟩ <;> rw [Machine.encloseDiff] <;> push_cast
  · gcongr
    · exact he.lo_le
    · exact hf.le_hi
  · gcongr
    · exact he.le_hi
    · exact hf.lo_le

/-! ## The series -/

theorem atanTail_eq_sum (t : ℝ) (s : Rat) (hs : (s : ℝ) = t ^ 2) (k n : Nat) :
    (atanTail s k n : ℝ) = ∑ i ∈ range n, (-1) ^ i * (t ^ (2 * i) / ((2 * (k + i) + 1 : Nat) : ℝ)) := by
  induction n generalizing k with
  | zero => simp [atanTail]
  | succ n ih =>
    rw [atanTail, sum_range_succ']
    push_cast
    rw [ih, hs, mul_sum, sub_eq_neg_add, ← sum_neg_distrib]
    congr 1
    · refine sum_congr rfl fun i _ => ?_
      push_cast
      ring
    · simp

theorem atanSum_eq_sum (t : Rat) (n : Nat) :
    (atanSum t n : ℝ) = ∑ i ∈ range n, (-1) ^ i * ((t : ℝ) ^ (2 * i + 1) / ((2 * i + 1 : Nat) : ℝ)) := by
  rw [atanSum, Rat.cast_mul, atanTail_eq_sum t (t * t) (by push_cast; ring), mul_sum]
  refine sum_congr rfl fun i _ => ?_
  rw [Nat.zero_add]
  ring

theorem arctanTerm_antitone {t : ℝ} (h0 : 0 ≤ t) (h1 : t ≤ 1) :
    Antitone fun i : Nat => t ^ (2 * i + 1) / ((2 * i + 1 : Nat) : ℝ) := by
  intro i j hij
  exact div_le_div₀ (by positivity) (pow_le_pow_of_le_one h0 h1 (by omega)) (by positivity) (by gcongr)

/-- An even partial sum is at most the arctangent and an odd one at least (log 6). -/
theorem atanSmall_contains (n : Nat) {t : Rat} (h0 : 0 ≤ t) (h1 : t < 1) :
    (atanSmall n t).Contains (arctan t) := by
  have h0R : (0 : ℝ) ≤ t := by exact_mod_cast h0
  have h1R : (t : ℝ) < 1 := by exact_mod_cast h1
  have hsum := (Real.hasSum_arctan (x := t) (by rwa [norm_of_nonneg h0R])).tendsto_sum_nat
  simp only [mul_div_assoc] at hsum
  refine ⟨?_, ?_⟩ <;> rw [atanSmall, atanSum_eq_sum]
  · exact (arctanTerm_antitone h0R h1R.le).alternating_series_le_tendsto hsum n
  · exact (arctanTerm_antitone h0R h1R.le).tendsto_le_alternating_series hsum n

theorem quarterPi_contains (n : Nat) : (quarterPi n).Contains (π / 4) := by
  have h := (atanSmall_contains n (t := 1 / 5) (by norm_num) (by norm_num)).encloseDiff
    (atanSmall_contains n (t := 1 / 239) (by norm_num) (by norm_num)) 4 1
  rw [← four_mul_arctan_inv_5_sub_arctan_inv_239]
  simpa [quarterPi] using h

theorem arctan_eq_pi_div_four_sub {t : ℝ} (h0 : 0 ≤ t) :
    arctan t = π / 4 - arctan ((1 - t) / (1 + t)) := by
  have hprod : t * ((1 - t) / (1 + t)) < 1 := by
    rw [← mul_div_assoc, div_lt_one (by linarith)]
    nlinarith
  have hden : 1 - t * ((1 - t) / (1 + t)) ≠ 0 := by linarith
  have hsum : t + (1 - t) / (1 + t) = 1 - t * ((1 - t) / (1 + t)) := by field_simp; ring
  rw [eq_sub_iff_add_eq, arctan_add hprod, ← arctan_one, hsum, div_self hden]

theorem atanUnit_contains (n : Nat) {t : Rat} (h0 : 0 ≤ t) (h1 : t ≤ 1) : (atanUnit n t).Contains (arctan t) := by
  unfold atanUnit
  split
  · exact atanSmall_contains n h0 (by linarith)
  · have hpos : 0 < 1 + t := by linarith
    have hrest : (1 - t) / (1 + t) < 1 := by rw [div_lt_one hpos]; linarith
    have h := (quarterPi_contains n).encloseDiff
      (atanSmall_contains n (div_nonneg (by linarith) hpos.le) hrest) 1 1
    rw [arctan_eq_pi_div_four_sub (by exact_mod_cast h0)]
    simpa using h

/-! ## The angle of a point -/

/-- The angle in [0, π/2] of the point (x, y). -/
noncomputable def quadrantAngle (y x : Nat) : ℝ :=
  if y ≤ x then arctan (y / x) else π / 2 - arctan (x / y)

theorem firstQuadrant_contains (n : Nat) {y x : Nat} (h : 0 < y ∨ 0 < x) :
    (firstQuadrant n y x).Contains (quadrantAngle y x) := by
  have hratio {a b : Nat} (hb : 0 < b) (hab : a ≤ b) : (atanUnit n ((a : Rat) / b)).Contains (arctan (a / b)) := by
    have hle : (a : Rat) / b ≤ 1 := by rw [div_le_one (by exact_mod_cast hb)]; exact_mod_cast hab
    simpa using atanUnit_contains n (by positivity) hle
  unfold firstQuadrant quadrantAngle
  split
  · exact hratio (by omega) ‹_›
  · have henc := (quarterPi_contains n).encloseDiff (hratio (a := x) (b := y) (by omega) (by omega)) 2 1
    have htwo : ((2 : Nat) : ℝ) * (π / 4) - (1 : Nat) * arctan (x / y) = π / 2 - arctan (x / y) := by push_cast; ring
    rwa [htwo] at henc

theorem polar_quadrantAngle {y x : Nat} (h : 0 < y ∨ 0 < x) :
    ∃ r : ℝ, 0 < r ∧ x = r * cos (quadrantAngle y x) ∧ y = r * sin (quadrantAngle y x) := by
  have hpolar {a b : Nat} (hb : 0 < b) : ∃ r : ℝ, 0 < r ∧ (b : ℝ) = r * cos (arctan (a / b)) ∧
      (a : ℝ) = r * sin (arctan (a / b)) := by
    have hcos := cos_arctan_pos (a / b)
    have hbR : (0 : ℝ) < b := by exact_mod_cast hb
    refine ⟨b / cos (arctan (a / b)), by positivity, by field_simp, ?_⟩
    rw [div_mul_eq_mul_div, mul_div_assoc, ← tan_eq_sin_div_cos, tan_arctan]
    field_simp
  unfold quadrantAngle
  split
  · exact hpolar (by omega)
  · obtain ⟨r, hr, hx, hy⟩ := hpolar (a := x) (b := y) (by omega)
    exact ⟨r, hr, by rwa [cos_pi_div_two_sub], by rwa [sin_pi_div_two_sub]⟩

theorem quadrantAngle_mem (y x : Nat) : 0 ≤ quadrantAngle y x ∧ quadrantAngle y x ≤ π / 2 := by
  unfold quadrantAngle
  split
  · exact ⟨arctan_nonneg.2 (by positivity), (arctan_lt_pi_div_two _).le⟩
  · have h0 : 0 ≤ arctan (x / y) := arctan_nonneg.2 (by positivity)
    have h1 := arctan_lt_pi_div_two (x / y)
    exact ⟨by linarith, by linarith⟩

theorem exactAngle_eq (xNeg : Bool) {y x : Nat} (h : 0 < y ∨ 0 < x) :
    Claims.exactAngle xNeg y x = if xNeg then π - quadrantAngle y x else quadrantAngle y x := by
  obtain ⟨r, hr, hx, hy⟩ := polar_quadrantAngle h
  obtain ⟨h0, h1⟩ := quadrantAngle_mem y x
  have hpi := pi_pos
  have harg {θ : ℝ} (hθ : 0 ≤ θ ∧ θ ≤ π) : Complex.arg ⟨r * cos θ, r * sin θ⟩ = θ := by
    have hz : (⟨r * cos θ, r * sin θ⟩ : ℂ) = r * (Complex.cos θ + Complex.sin θ * Complex.I) := by
      rw [← Complex.ofReal_cos, ← Complex.ofReal_sin]
      exact Complex.ext (by simp [-Complex.ofReal_cos, -Complex.ofReal_sin])
        (by simp [-Complex.ofReal_cos, -Complex.ofReal_sin])
    rw [hz, Complex.arg_mul_cos_add_sin_mul_I hr ⟨by linarith, hθ.2⟩]
  unfold Claims.exactAngle
  cases xNeg
  · simpa [← hx, ← hy] using harg (θ := quadrantAngle y x) ⟨h0, by linarith⟩
  · simpa [cos_pi_sub, sin_pi_sub, ← hx, ← hy] using harg (θ := π - quadrantAngle y x) ⟨by linarith, by linarith⟩

theorem upperAngle_contains (n : Nat) (xNeg : Bool) {y x : Nat} (h : 0 < y ∨ 0 < x) :
    (upperAngle n xNeg y x).Contains (Claims.exactAngle xNeg y x) := by
  rw [exactAngle_eq xNeg h]
  unfold upperAngle
  split
  · have henc := (quarterPi_contains n).encloseDiff (firstQuadrant_contains n h) 4 1
    have hfour : ((4 : Nat) : ℝ) * (π / 4) - (1 : Nat) * quadrantAngle y x = π - quadrantAngle y x := by push_cast; ring
    rwa [hfour] at henc
  · exact firstQuadrant_contains n h

theorem exactAngle_nonneg (xNeg : Bool) (y x : Nat) : 0 ≤ Claims.exactAngle xNeg y x :=
  Complex.arg_nonneg_iff.2 (Nat.cast_nonneg y)

theorem exactAngle_le_pi (xNeg : Bool) (y x : Nat) : Claims.exactAngle xNeg y x ≤ π := Complex.arg_le_pi _

/-! ## The magnitude nearest to the angle -/

theorem roundMagRat_eq (q : Rat) : roundMagRat q = roundMag (q.num.toNat * unitOne) q.den := rfl

/-- What is rounded, in units: the rational, or 0 where it is negative. -/
theorem roundMagRat_operand (q : Rat) :
    ((q.num.toNat * unitOne : Nat) : ℝ) / q.den = max (q : ℝ) 0 * 2 ^ 149 := by
  have hnum : ((q.num.toNat : Nat) : ℝ) = max (q.num : ℝ) 0 := by
    rw [← Int.cast_natCast, Int.ofNat_toNat, Int.cast_max, Int.cast_zero]
  have hmax : max (q : ℝ) 0 = max (q.num : ℝ) 0 / q.den := by
    rw [← max_div_div_right (Nat.cast_nonneg _), zero_div, ← Rat.cast_def]
  rw [hmax, ← hnum, unitOne]
  push_cast
  ring

theorem roundMagRat_nearest {q : Rat} (h : roundMagRat q < infMag) :
    NearestMag (roundMagRat q) (max (q : ℝ) 0 * 2 ^ 149) := by
  have hnear := roundFree_nearest (q.num.toNat * unitOne) q.den_pos
  rw [roundMagRat_operand] at hnear
  rw [roundMagRat_eq, roundMag_eq_min] at h ⊢
  rwa [min_eq_left (by omega)]

theorem units_lt_threshold {v : ℝ} (hv : v ≤ π) : v * 2 ^ 149 < 2 ^ 277 - 2 ^ 252 := by
  rw [← div_units_lt_threshold_iff, mul_div_cancel_right₀ _ (by positivity)]
  linarith [pi_lt_four, (by norm_num : (4 : ℝ) < 2 ^ 128 - 2 ^ 103)]

theorem roundMagRat_lt_infMag {q : Rat} (hq : (q : ℝ) ≤ π) : roundMagRat q < infMag := by
  have hnear := roundFree_nearest (q.num.toNat * unitOne) q.den_pos
  rw [roundMagRat_operand] at hnear
  rw [roundMagRat_eq, roundMag_eq_min]
  exact (min_le_left _ _).trans_lt (hnear.lt_infMag_iff.2 (units_lt_threshold (max_le hq pi_pos.le)))

section Decided
variable {e : Enclosure} {v : ℝ} (he : e.Contains v) (h0 : 0 ≤ v) (hpi : v ≤ π)
include he h0 hpi

theorem Enclosure.Contains.roundMagRat_lo_nearest :
    NearestMag (roundMagRat e.lo) (max (e.lo : ℝ) 0 * 2 ^ 149) ∧ max (e.lo : ℝ) 0 ≤ v :=
  ⟨roundMagRat_nearest (roundMagRat_lt_infMag (he.lo_le.trans hpi)), max_le he.lo_le h0⟩

/-- Where both ends of the enclosure round alike, what they round to is the magnitude nearest to the enclosed angle. -/
theorem Enclosure.Contains.enclosureMag_nearest {m : Nat} (hm : enclosureMag e = some m) :
    NearestMag m (v * 2 ^ 149) ∧ m < infMag := by
  have hround : roundMagRat e.lo = roundMagRat e.hi ∧ roundMagRat e.lo = m := by
    unfold enclosureMag at hm
    split at hm <;> simp_all
  obtain ⟨hhi, rfl⟩ := hround
  obtain ⟨hlo, hle⟩ := he.roundMagRat_lo_nearest h0 hpi
  have hfin : roundMagRat e.lo < infMag := roundMagRat_lt_infMag (he.lo_le.trans hpi)
  have hnear := roundMagRat_nearest (q := e.hi) (hhi ▸ hfin)
  rw [← hhi] at hnear
  exact ⟨hlo.between hnear (by gcongr) (by gcongr; exact he.le_hi.trans (le_max_left _ _)), hfin⟩

end Decided

theorem exactAngle_negative_axis {x : Nat} (hx : 0 < x) : Claims.exactAngle true 0 x = π := by
  rw [exactAngle_eq true (.inr hx), if_pos rfl, quadrantAngle, if_pos (Nat.zero_le x), Nat.cast_zero, zero_div,
    arctan_zero, sub_zero]

theorem enclosureMag_pi : enclosureMag (upperAngle 16 true 0 1) = some (fMag fPi) := by decide +kernel

theorem fPi_nearest : NearestMag (fMag fPi) (π * 2 ^ 149) := by
  have hpi := exactAngle_negative_axis one_pos
  have he := upperAngle_contains 16 true (y := 0) (.inr one_pos)
  rw [hpi] at he
  exact (he.enclosureMag_nearest pi_pos.le le_rfl enclosureMag_pi).1

/-- The search of `angleMag` with the two roundings as variables: its equations do not make the kernel evaluate a
rounding of an open term. -/
def firstDecided (decided : Nat → Option Nat) (low : Nat → Nat) : List Nat → Nat
  | [] => 0
  | n :: rest =>
    match decided n with
    | some m => m
    | none => if rest = [] then low n else firstDecided decided low rest

theorem angleMag_eq_firstDecided (xNeg : Bool) (y x : Nat) : angleMag xNeg y x =
    firstDecided (fun n => enclosureMag (upperAngle n xNeg y x)) (fun n => roundMagRat (upperAngle n xNeg y x).lo) := by
  obtain ⟨decided, hdecided⟩ : ∃ f, f = enclosureMag := ⟨_, rfl⟩
  obtain ⟨low, hlow⟩ : ∃ f, f = roundMagRat := ⟨_, rfl⟩
  have hstep : angleMag._f xNeg y x = firstDecided._f (fun n => enclosureMag (upperAngle n xNeg y x))
      (fun n => roundMagRat (upperAngle n xNeg y x).lo) := by
    delta angleMag._f
    rewrite [← hdecided, ← hlow]
    exact funext fun l => funext fun F => by cases l <;> rfl
  delta angleMag firstDecided
  rw [hstep]

section FirstDecided
variable {decided : Nat → Option Nat} {low : Nat → Nat}

theorem firstDecided_eq {m n : Nat} (hunique : ∀ k r, decided k = some r → r = m) (hm : decided n = some m)
    {tries : List Nat} (hn : n ∈ tries) : firstDecided decided low tries = m := by
  induction tries with
  | nil => nomatch hn
  | cons k rest ih =>
    unfold firstDecided
    split
    · next r hk => exact hunique k r hk
    · next hk =>
      have hrest : n ∈ rest := (List.mem_cons.1 hn).resolve_left fun hnk => by simp [← hnk, hm] at hk
      exact (if_neg (List.ne_nil_of_mem hrest)).trans (ih hrest)

theorem firstDecided_le {b : Nat} (hdecided : ∀ k r, decided k = some r → r ≤ b) (hlow : ∀ k, low k ≤ b)
    (tries : List Nat) : firstDecided decided low tries ≤ b := by
  induction tries with
  | nil => exact Nat.zero_le b
  | cons k rest ih =>
    unfold firstDecided
    split
    · next r hk => exact hdecided k r hk
    · split
      · exact hlow k
      · exact ih

end FirstDecided

section Point
variable (xNeg : Bool) {y x : Nat} (h : 0 < y ∨ 0 < x)
include h

theorem enclosureMag_upperAngle_nearest {n m : Nat} (hm : enclosureMag (upperAngle n xNeg y x) = some m) :
    NearestMag m (Claims.exactAngle xNeg y x * 2 ^ 149) ∧ m < infMag :=
  (upperAngle_contains n xNeg h).enclosureMag_nearest (exactAngle_nonneg _ _ _) (exactAngle_le_pi _ _ _) hm

theorem angleMag_eq {n m : Nat} (hm : enclosureMag (upperAngle n xNeg y x) = some m) {tries : List Nat}
    (hn : n ∈ tries) : angleMag xNeg y x tries = m := by
  have hunique (k r : Nat) (hk : enclosureMag (upperAngle k xNeg y x) = some r) : r = m :=
    (enclosureMag_upperAngle_nearest xNeg h hk).1.unique (enclosureMag_upperAngle_nearest xNeg h hm).1
  rw [angleMag_eq_firstDecided]
  exact firstDecided_eq hunique hm hn

theorem angleMag_le (tries : List Nat) : angleMag xNeg y x tries ≤ fMag fPi := by
  have hpi := exactAngle_le_pi xNeg y x
  have hdecided (k r : Nat) (hk : enclosureMag (upperAngle k xNeg y x) = some r) : r ≤ fMag fPi :=
    (enclosureMag_upperAngle_nearest xNeg h hk).1.mono fPi_nearest (by gcongr)
  have hlow (k : Nat) : roundMagRat (upperAngle k xNeg y x).lo ≤ fMag fPi := by
    obtain ⟨hlo, hle⟩ := (upperAngle_contains k xNeg h).roundMagRat_lo_nearest (exactAngle_nonneg _ _ _) hpi
    exact hlo.mono fPi_nearest (by gcongr; exact hle.trans hpi)
  rw [angleMag_eq_firstDecided]
  exact firstDecided_le hdecided hlow tries

end Point

/-! ## ATAN2_F32 -/

theorem fSign_of_flt_zero {x : F32} (h : flt x fZero = true) : fSign x = true ∧ fIsZero x = false := by
  have hzero : fOrder fZero = 0 := rfl
  obtain ⟨-, -, hlt⟩ := fOrder_of_flt h
  rw [hzero] at hlt
  unfold fOrder at hlt
  split at hlt
  · next hs => exact ⟨hs, beq_eq_false_iff_ne.2 (by omega)⟩
  · omega

theorem fAbsUnits_pos_or {y x : F32} (h : fIsZero y = false ∨ fIsZero x = false) : 0 < fAbsUnits y ∨ 0 < fAbsUnits x :=
  h.imp fAbsUnits_pos fAbsUnits_pos

theorem atan2Nearest_of_axis {y x : F32} (hy : fIsZero y = true) (hx : flt x fZero = true) :
    atan2Nearest y x = fPack (fSign y) (fMag fPi) := by simp [atan2Nearest, hy, hx]

section Finite
variable {y x : F32} (hy : fIsFinite y = true) (hx : fIsFinite x = true) (hz : fIsZero y = false ∨ fIsZero x = false)
include hy hx hz

theorem atan2Nearest_of_finite (haxis : ¬(fIsZero y = true ∧ flt x fZero = true)) :
    atan2Nearest y x = fPack (fSign y) (angleMag (fSign x) (fAbsUnits y) (fAbsUnits x) atanTries) := by
  have hnz : ¬(fIsZero y = true ∧ fIsZero x = true) := by rintro ⟨h1, h2⟩; simp [h1, h2] at hz
  simp [atan2Nearest, hy, hx, haxis, hnz]

theorem atan2Nearest_of_decided {n m : Nat} (hn : n ∈ atanTries)
    (hm : enclosureMag (upperAngle n (fSign x) (fAbsUnits y) (fAbsUnits x)) = some m) :
    atan2Nearest y x = fPack (fSign y) m := by
  have hpos := fAbsUnits_pos_or hz
  by_cases haxis : fIsZero y = true ∧ flt x fZero = true
  · obtain ⟨hy0, hxneg⟩ := haxis
    obtain ⟨hs, hx0⟩ := fSign_of_flt_zero hxneg
    obtain ⟨hnear, -⟩ := enclosureMag_upperAngle_nearest (fSign x) hpos hm
    rw [hs, fAbsUnits_of_zero hy0, exactAngle_negative_axis (fAbsUnits_pos hx0)] at hnear
    rw [atan2Nearest_of_axis hy0 hxneg, fPi_nearest.unique hnear]
  · rw [atan2Nearest_of_finite hy hx hz haxis, angleMag_eq _ hpos hm hn]

end Finite

theorem fMag_atan2Nearest_le (y x : F32) : fMag (atan2Nearest y x) ≤ fMag fPi := by
  have hpi31 : fMag fPi < 2 ^ 31 := by decide
  unfold atan2Nearest
  split
  · rw [fMag_fPack _ hpi31]
  · split
    · exact fMag_boundAngle _
    · split
      · next hz =>
        split
        · exact fMag_boundAngle _
        · simp_all [fIsZero]
      · next hz =>
        have hle := angleMag_le (fSign x) (y := fAbsUnits y) (x := fAbsUnits x)
          (fAbsUnits_pos_or (by simpa [Decidable.imp_iff_not_or] using hz)) atanTries
        rwa [fMag_fPack _ (hle.trans_lt hpi31)]

theorem atan2F32_angleOk {p : Atan2Parameter} (hp : p.ok = true) (y x : F32) : angleOk (atan2F32 p y x) = true := by
  cases p with
  | nearest => exact angleOk_of_fMag_le (fMag_atan2Nearest_le y x)
  | library => exact angleOk_of_fMag_le (fMag_boundAngle _)
  | table entries =>
    unfold atan2F32
    dsimp only
    split
    · next e he => exact List.all_eq_true.1 hp e (List.mem_of_find?_eq_some he)
    · exact angleOk_of_fMag_le (fMag_atan2Nearest_le y x)

theorem fMag_le_of_angleOk {v : F32} (h : angleOk v = true) : fMag v ≤ fMag fPi := by
  have hpi : fMag fPi = 0x40490FDB := rfl
  have hhi : fOrder fPi = 0x40490FDB := rfl
  have hlo : fOrder fMinusPi = -0x40490FDB := rfl
  obtain ⟨hge, hle⟩ := Bool.and_eq_true_iff.1 h
  obtain ⟨-, -, hge⟩ := fOrder_of_fle hge
  obtain ⟨-, -, hle⟩ := fOrder_of_fle hle
  rw [hhi] at hle
  rw [hlo] at hge
  unfold fOrder at hge hle
  split at hge <;> rename_i hs
  · omega
  · rw [if_neg hs] at hle; omega

/-- Settles O22: the alternating series encloses the arctangent, Machin's formula π/4, and a magnitude both ends round
to is nearest to what lies between them. -/
theorem angleEnclosureContainsTheAngle : Obligations.AngleEnclosureContainsTheAngle := by
  unfold Obligations.AngleEnclosureContainsTheAngle
  refine ⟨fun n y x xNeg _ h => ?_, fun y x n m hy hx hz hn hm => ?_, fun y x hy hx => ?_, fun y hy => ?_,
    fun p y x hp => ?_, fun v hlo hhi => ?_, fun y x v l => ?_⟩
  · obtain ⟨hlo, hhi⟩ := upperAngle_contains n xNeg h
    exact ⟨hlo, hhi⟩
  · obtain ⟨hnear, hfin⟩ := enclosureMag_upperAngle_nearest (fSign x) (fAbsUnits_pos_or hz) hm
    have hvalue : atan2F32 .nearest y x = fPack (fSign y) m := atan2Nearest_of_decided hy hx hz hn hm
    have hangle := hnear.isNearest (mul_nonneg (exactAngle_nonneg _ _ _) (by positivity)) hfin false
    have hm31 : m < 2 ^ 31 := hfin.trans (by decide)
    rw [mul_div_cancel_right₀ _ (by positivity)] at hangle
    rw [hvalue]
    exact ⟨fSign_fPack _ hm31, fMag_fPack _ hm31, hangle⟩
  · refine (atan2Nearest_of_axis hy hx).trans ?_
    cases fSign y <;> rfl
  · have hfin : fIsFinite y = true := (fIsFinite_iff y).2 (by simp_all [fIsZero, infMag])
    have hzero : flt 0#32 fZero = false ∧ fIsFinite 0#32 = true ∧ fIsZero 0#32 = true ∧ fSign 0#32 = false := by decide
    obtain ⟨hlt, hfin0, hz0, hs0⟩ := hzero
    simp [atan2F32, atan2Nearest, hy, hfin, hlt, hfin0, hz0, hs0]
  · exact Bool.and_eq_true_iff.1 (atan2F32_angleOk hp y x)
  · exact ⟨v, boundAngle_self (fMag_le_of_angleOk (Bool.and_eq_true_iff.2 ⟨hlo, hhi⟩))⟩
  · simp [atan2F32]

end Sys2Proof.Machine
end

section
/-! PROOF. The evaluator's values stay finite (O32), and with the documented ranges no draw enters them (O24). -/

namespace Sys2Proof.Machine

open Claims

/-! ## Ranges through the operators -/

theorem Representable.neg {x : ℝ} (h : Representable x) : Representable (-x) := by
  obtain ⟨c, hc, rfl⟩ := h
  exact ⟨fNeg c, (fIsFinite_fNeg c).trans hc, real_fNeg c⟩

section Operators
variable {a b : F32} {l u l' u' : ℝ}

theorem InRange.add (ha : InRange a l u) (hb : InRange b l' u') (hlo : Representable (l + l'))
    (hhi : Representable (u + u')) : InRange (fadd a b) (l + l') (u + u') :=
  inRange_of_roundsTo (fadd_roundsTo ha.finite hb.finite) hlo hhi (add_le_add ha.ge hb.ge) (add_le_add ha.le hb.le)

theorem InRange.mul (ha : InRange a (-u) u) (hb : InRange b 0 u') (h : Representable (u * u')) :
    InRange (fmul a b) (-(u * u')) (u * u') := by
  have habs : |real a * real b| ≤ u * u' := by
    rw [abs_mul]
    exact mul_le_mul (abs_le.mpr ⟨ha.ge, ha.le⟩) (abs_le.mpr ⟨by linarith [hb.ge, hb.le], hb.le⟩) (abs_nonneg _)
      (by linarith [ha.ge, ha.le])
  obtain ⟨hlo, hhi⟩ := abs_le.mp habs
  exact inRange_of_roundsTo (fmul_roundsTo ha.finite hb.finite) h.neg h hlo hhi

theorem InRange.mul_of_nonneg (ha : InRange a 0 u) (hb : InRange b 0 u') (h : Representable (u * u')) :
    InRange (fmul a b) 0 (u * u') :=
  inRange_of_roundsTo (fmul_roundsTo ha.finite hb.finite) representable_zero h (mul_nonneg ha.ge hb.ge)
    (mul_le_mul ha.le hb.le hb.ge (ha.ge.trans ha.le))

theorem InRange.mul_self (ha : InRange a (-u) u) (h : Representable (u * u)) : InRange (fmul a a) 0 (u * u) :=
  inRange_of_roundsTo (fmul_roundsTo ha.finite ha.finite) representable_zero h (mul_self_nonneg _)
    (by nlinarith [ha.ge, ha.le])

end Operators

theorem fSign_of_pos {a : F32} (h : 0 < real a) : fSign a = false := by
  by_contra hs
  rw [real_eq_signed, eq_true_of_ne_false hs, signed, if_pos rfl] at h
  have hunits : (0 : ℝ) ≤ fAbsUnits a / 2 ^ 149 := by positivity
  linarith

theorem real_ne_zero {a : F32} (h : fIsZero a = false) : real a ≠ 0 := by
  have hunits : (0 : ℝ) < fAbsUnits a := by exact_mod_cast fAbsUnits_pos h
  rw [← abs_ne_zero, real_eq_signed, abs_signed]
  positivity

theorem fsqrt_inRange {a : F32} (h : InRange a 0 1) : InRange (fsqrt a) 0 1 := by
  cases hz : fIsZero a
  · have hnear := fsqrt_isNearest h.finite (fSign_of_pos (lt_of_le_of_ne h.ge (real_ne_zero hz).symm))
    have hlo := isNearest_ge (c := fZero) hnear rfl (by rw [real_fZero]; exact Real.sqrt_nonneg _)
    have hhi := isNearest_le (c := fOne) hnear rfl (by rw [real_fOne]; exact Real.sqrt_le_one.mpr h.le)
    exact ⟨hnear.1, real_fZero ▸ hlo, real_fOne ▸ hhi⟩
  · rwa [fsqrt_zero hz]

/-- The remainder is smaller than the divisor, so their rounded quotient is at most 1. -/
theorem fdiv_ffmod_inRange {a b : F32} (ha : fIsFinite a = true) (hb : fIsFinite b = true) (hz : fIsZero b = false) :
    InRange (fdiv (ffmod a b) b) (-1) 1 := by
  obtain ⟨r, hr, hunits, hrem⟩ := ffmod_eq_fPack ha hb hz
  have hpos := fAbsUnits_pos hz
  have hle : (magUnits r : ℝ) ≤ fAbsUnits b := by exact_mod_cast hunits ▸ (Nat.mod_lt _ hpos).le
  have hquot : |real (ffmod a b) / real b| ≤ 1 := by
    rw [abs_div, div_le_one (abs_pos.mpr (real_ne_zero hz)), hrem, real_fPack _ (hr.trans (by decide)),
      real_eq_signed b, abs_signed, abs_signed, abs_of_nonneg (by positivity), abs_of_nonneg (by positivity)]
    gcongr
  obtain ⟨hlo, hhi⟩ := abs_le.mp hquot
  have hfin : fIsFinite (ffmod a b) = true := hrem ▸ fIsFinite_fPack _ hr
  exact inRange_of_roundsTo (fdiv_roundsTo hfin hb hz) representable_one.neg representable_one hlo hhi

/-- Whole numbers that bound the evaluator's values. -/
theorem representable_natCast {n : Nat} (h : n ≤ 2 ^ 24) : Representable n := by
  have hint := representable_int (n := n) (by rw [Nat.abs_cast]; exact_mod_cast h)
  rwa [Int.cast_natCast] at hint

theorem representable_ofNat (n : Nat) [n.AtLeastTwo] (h : n ≤ 2 ^ 24) : Representable (OfNat.ofNat n : ℝ) :=
  representable_natCast h

theorem inRange_of_bounds {c : F32} {n : Nat} (h : fle fZero c = true ∧ fle c (cvtF32 n) = true) (hn : n ≤ 2 ^ 24) :
    InRange c 0 n := by
  obtain ⟨hfin, hreal⟩ := cvtF32_natCast hn
  obtain ⟨hlo, hhi⟩ := h
  have hrange := inRange_of_fle rfl hfin hlo hhi
  rwa [real_fZero, hreal] at hrange

/-! ## The raw values -/

theorem dims_le {w h : Nat} (hdims : dimsOk w h = true) : w ≤ 2 ^ 20 ∧ h ≤ 2 ^ 20 := by
  simp only [dimsOk, Config.maxCells, Bool.and_eq_true, decide_eq_true_eq] at hdims
  obtain ⟨⟨hw, hh⟩, hcells⟩ := hdims
  have hcells := of_decide_eq_true hcells
  exact ⟨(Nat.le_mul_of_pos_right w hh).trans hcells, (Nat.le_mul_of_pos_left h hw).trans hcells⟩

theorem representable_half : Representable (1 / 2) := ⟨fHalf, rfl, real_fHalf⟩

theorem centre_inRange {n : F32} (h : InRange n 0 1) : InRange (fsub n fHalf) (-(1 / 2)) (1 / 2) := by
  have hround := fsub_roundsTo h.finite (b := fHalf) rfl
  rw [real_fHalf] at hround
  exact inRange_of_roundsTo hround representable_half.neg representable_half (by linarith [h.ge]) (by linarith [h.le])

theorem centreDistance_inRange {dx dy : F32} (hx : InRange dx (-(1 / 2)) (1 / 2)) (hy : InRange dy (-(1 / 2)) (1 / 2)) :
    InRange (centreDistance dx dy) 0 1 := by
  have hquarter : Representable (1 / 2 * (1 / 2)) := by
    have h := representable_div_two_pow (n := 1) (by decide) (j := 2) (by decide)
    norm_num at h ⊢
    exact h
  have hsum : Representable (1 / 2 * (1 / 2) + 1 / 2 * (1 / 2)) := by
    rw [← add_mul, add_halves, one_mul]; exact representable_half
  have hsquares := (hx.mul_self hquarter).add (hy.mul_self hquarter) (by rw [add_zero]; exact representable_zero) hsum
  exact fsqrt_inRange (hsquares.mono (by norm_num) (by norm_num))

theorem rawDiagonal_inRange {nx ny : F32} (hx : InRange nx 0 1) (hy : InRange ny 0 1) :
    InRange (rawDiagonal nx ny) 0 1 := by
  have hsum := hx.add hy (by rw [add_zero]; exact representable_zero)
    (by norm_num; exact representable_ofNat 2 (by decide))
  have hround := fdiv_roundsTo hsum.finite (b := fTwo) rfl rfl
  rw [real_fTwo] at hround
  exact inRange_of_roundsTo hround representable_zero representable_one (by linarith [hsum.ge]) (by linarith [hsum.le])

theorem fromAmplitude_inRange {t : Int} (h : -64 ≤ t ∧ t ≤ 64) : InRange (fromAmplitude t) 0 1 := by
  obtain ⟨hlo, hhi⟩ := h
  obtain ⟨hfin, hreal⟩ := real_fromAmplitude hlo hhi
  have hlo' : (0 : ℝ) ≤ (t + 64 : Int) := by exact_mod_cast (by omega : 0 ≤ t + 64)
  have hhi' : ((t + 64 : Int) : ℝ) ≤ 128 := by exact_mod_cast (by omega : t + 64 ≤ 128)
  exact ⟨hfin, by rw [hreal]; positivity, by rw [hreal]; linarith⟩

theorem noiseScalar_inRange (n : Byte) : InRange (noiseScalar n) 0 1 := by
  obtain ⟨hfin, hreal⟩ := cvtF32_natCast (n := n.toNat) (by omega)
  have hround := fdiv_roundsTo hfin (b := f255) rfl rfl
  rw [hreal, real_f255] at hround
  have h0 : (0 : ℝ) ≤ n.toNat := Nat.cast_nonneg _
  have h255 : (n.toNat : ℝ) ≤ 255 := by exact_mod_cast (by omega : n.toNat ≤ 255)
  exact inRange_of_roundsTo hround representable_zero representable_one (by positivity) (by linarith)

theorem atan2F32_inRange {p : Atan2Parameter} (hp : p.ok = true) (y x : F32) : InRange (atan2F32 p y x) (-4) 4 := by
  obtain ⟨hlo, hhi⟩ := Bool.and_eq_true_iff.mp (atan2F32_angleOk hp y x)
  have hpi : InRange fPi 0 (4 : Nat) := inRange_of_bounds (by decide +kernel) (by decide)
  have hneg : real fMinusPi = -real fPi := real_fNeg fPi
  refine (inRange_of_fle rfl rfl hlo hhi).mono ?_ hpi.le
  rw [hneg]
  exact neg_le_neg hpi.le

theorem rawRadial_inRange {b : BlockParameters} {nx ny : F32} (hscale : b.radialScale = 0x3FB504F3#32)
    (hx : InRange nx 0 1) (hy : InRange ny 0 1) : InRange (rawRadial b nx ny) 0 2 := by
  have hfactor : InRange b.radialScale 0 (2 : Nat) := by
    rw [hscale]; exact inRange_of_bounds (by decide +kernel) (by decide)
  have hprod := (centreDistance_inRange (centre_inRange hx) (centre_inRange hy)).mul_of_nonneg hfactor
    (by rw [one_mul]; exact representable_natCast (by decide))
  exact hprod.mono le_rfl (by norm_num)

theorem rawSpiral_inRange {b : BlockParameters} {nx ny : F32} (hb : b.atan2.ok = true)
    (htwoPi : b.twoPi = 0x40C90FDB#32) (hx : InRange nx 0 1) (hy : InRange ny 0 1) :
    InRange (rawSpiral b nx ny) (-1) 1 := by
  have hten : InRange fTen 0 (10 : Nat) := inRange_of_bounds (by decide +kernel) (by decide)
  have hturns := (centreDistance_inRange (centre_inRange hx) (centre_inRange hy)).mul_of_nonneg hten
    (by rw [one_mul]; exact representable_natCast (by decide))
  have hangle := (atan2F32_inRange hb (fsub ny fHalf) (fsub nx fHalf)).add hturns
    (by rw [add_zero]; exact (representable_ofNat 4 (by decide)).neg)
    (by norm_num; exact representable_ofNat 14 (by decide))
  unfold rawSpiral
  rw [htwoPi]
  exact fdiv_ffmod_inRange hangle.finite rfl rfl

section Pixel
variable {p : PatternParams} {x y : Nat} (hdims : dimsOk p.width p.height = true) (hx : x < p.width) (hy : y < p.height)
include hdims hx hy

theorem normalised_inRange : InRange (normalise x p.width) 0 1 ∧ InRange (normalise y p.height) 0 1 :=
  ⟨normalise_inRange hx (dims_le hdims).1, normalise_inRange hy (dims_le hdims).2⟩

/-- The raw-value ranges of the kinds, one by one (R164-R173). -/
theorem rawValue_inRange (hb : p.block.ok = true) (hscale : p.block.radialScale = 0x3FB504F3#32)
    (htwoPi : p.block.twoPi = 0x40C90FDB#32) (d : Nat) : InRange (rawValue p d x y) (-2) 2 := by
  obtain ⟨hnx, hny⟩ := normalised_inRange hdims hx hy
  obtain ⟨htable, hatan⟩ := Bool.and_eq_true_iff.mp hb
  have hunit {v : F32} (h : InRange v 0 1) : InRange v (-2) 2 := h.mono (by norm_num) (by norm_num)
  unfold rawValue
  dsimp only
  split
  case h_1 => exact hunit hnx
  case h_2 => exact hunit hny
  case h_3 => exact (rawRadial_inRange hscale hnx hny).mono (by norm_num) le_rfl
  case h_4 => exact hunit (rawDiagonal_inRange hnx hny)
  case h_5 => exact hunit (fromAmplitude_inRange (sineEntry_bounds htable _))
  case h_6 => exact hunit (fromAmplitude_inRange (sineEntry_bounds htable _))
  case h_7 =>
    exact hunit (fromAmplitude_inRange (tdiv_mul_bounds (sineEntry_bounds htable _) (sineEntry_bounds htable _)))
  case h_8 =>
    rcases rawCheckerboard_cases (normalise x p.width) (normalise y p.height) p.freq d with h | h <;> rw [h]
    · exact hunit ((inRange_unit_iff _).mpr (by decide))
    · exact hunit ((inRange_unit_iff _).mpr (by decide))
  case h_9 => exact hunit (noiseScalar_inRange _)
  case h_10 => exact (rawSpiral_inRange hatan htwoPi hnx hny).mono (by norm_num) (by norm_num)

end Pixel

theorem blend_inRange {b : BlockParameters} {v : F32} (hA : b.blendA = 0x3F333333#32) (hB : b.blendB = 0x3E99999A#32)
    (hv : InRange v (-2) 2) (n : Byte) : InRange (blend b v n) (-2) 3 := by
  have hweight {w : F32} (h : fle fZero w = true ∧ fle w (cvtF32 (1 : Nat)) = true) : InRange w 0 1 :=
    (inRange_of_bounds h (by decide)).mono le_rfl (by rw [Nat.cast_one])
  have hraw := hv.mul (hweight (w := b.blendA) (by rw [hA]; decide +kernel))
    (by rw [mul_one]; exact representable_ofNat 2 (by decide))
  have hnoise := (noiseScalar_inRange n).mul_of_nonneg (hweight (w := b.blendB) (by rw [hB]; decide +kernel))
    (by rw [mul_one]; exact representable_one)
  have hsum := hraw.add hnoise (by norm_num; exact (representable_ofNat 2 (by decide)).neg)
    (by norm_num; exact representable_ofNat 3 (by decide))
  exact hsum.mono (by norm_num) (by norm_num)

theorem overlay_finite {p : PatternParams} {v : F32} (hA : p.block.blendA = 0x3F333333#32)
    (hB : p.block.blendB = 0x3E99999A#32) (hv : InRange v (-2) 2) (d x y : Nat) :
    fIsFinite (overlay p d x y v) = true := by
  unfold overlay
  split
  · exact (blend_inRange hA hB hv _).finite
  · exact hv.finite

/-- Settles O32: every raw value lies in [-2, 2], so its blend with a noise byte is finite too. -/
theorem evaluatorNeverMeetsNaN : Obligations.EvaluatorNeverMeetsNaN := by
  unfold Obligations.EvaluatorNeverMeetsNaN
  intro p d x y hdims hx hy hb hscale htwoPi hA hB
  have hraw := rawValue_inRange hdims hx hy hb hscale htwoPi d
  exact ⟨hraw.finite, overlay_finite hA hB hraw d x y⟩

/-! ## The documented ranges -/

theorem angleInRange_of_inRange {v : F32} (h : InRange v 0 (2 ^ 24)) : AngleInRange v := by
  have hlo := le_fUnits (n := 0) (by exact_mod_cast h.ge)
  have hhi := fUnits_lt (n := 2 ^ 31) (h.le.trans_lt (by norm_num))
  exact ⟨h.finite, by omega, by omega⟩

theorem s32InRange_of_inRange {v : F32} (h : InRange v 0 (2 ^ 24)) : S32InRange v := by
  obtain ⟨hfin, hlo, hhi⟩ := angleInRange_of_inRange h
  exact ⟨hfin, by omega, hhi⟩

theorem truncAngle_slot {v : F32} (h : InRange v 0 (2 ^ 24)) (k k' : Nat) : truncAngle v k = truncAngle v k' := by
  rw [truncAngle_of_range (angleInRange_of_inRange h), truncAngle_of_range (angleInRange_of_inRange h)]

theorem truncS32_slot {v : F32} (h : InRange v 0 (2 ^ 24)) (k k' : Nat) : truncS32 v k = truncS32 v k' := by
  rw [truncS32_of_range (s32InRange_of_inRange h), truncS32_of_range (s32InRange_of_inRange h)]

/-- A coordinate times a constant times the frequency, as kinds 4 to 7 truncate it. -/
theorem phase_inRange {n c f : F32} {k : Nat} (hn : InRange n 0 1) (hc : InRange c 0 k) (hf : InRange f 0 4)
    (hk : k ≤ 64) : InRange (fmul (fmul n c) f) 0 256 := by
  have hcoordinate : InRange (fmul n c) 0 64 :=
    inRange_of_roundsTo (fmul_roundsTo hn.finite hc.finite) representable_zero (representable_ofNat 64 (by decide))
      (mul_nonneg hn.ge hc.ge) (by
        have hk' : (k : ℝ) ≤ 64 := by exact_mod_cast hk
        nlinarith [hn.ge, hn.le, hc.ge, hc.le])
  have hphase := hcoordinate.mul_of_nonneg hf (by norm_num; exact representable_ofNat 256 (by decide))
  exact hphase.mono le_rfl (by norm_num)

section Documented
variable {p : PatternParams} {x y : Nat} (hdims : dimsOk p.width p.height = true) (hx : x < p.width) (hy : y < p.height)
include hdims hx hy

/-- With the frequency in [0, 4] the phases of kinds 4 to 7 are far inside the range of the conversions. -/
theorem rawValue_slot (hf : InRange p.freq 0 4) (d d' : Nat) : rawValue p d x y = rawValue p d' x y := by
  obtain ⟨hnx, hny⟩ := normalised_inRange hdims hx hy
  have hbelow {v : F32} (h : InRange v 0 256) : InRange v 0 (2 ^ 24) := h.mono le_rfl (by norm_num)
  have h64 : InRange fSixtyFour 0 (64 : Nat) := inRange_of_bounds (by decide +kernel) (by decide)
  have h32 : InRange fThirtyTwo 0 (32 : Nat) := inRange_of_bounds (by decide +kernel) (by decide)
  have h16 : InRange fSixteen 0 (16 : Nat) := inRange_of_bounds (by decide +kernel) (by decide)
  have h8 : InRange fEight 0 (8 : Nat) := inRange_of_bounds (by decide +kernel) (by decide)
  have hshifted := (phase_inRange hny h64 hf le_rfl).add h16 (by rw [add_zero]; exact representable_zero)
    (by norm_num; exact representable_ofNat 272 (by decide))
  unfold rawValue
  dsimp only
  split
  case h_5 => rw [rawSine, truncAngle_slot (hbelow (phase_inRange hnx h64 hf le_rfl)) d d', rawSine]
  case h_6 => rw [rawCosine, truncAngle_slot (hshifted.mono (by norm_num) (by norm_num)) d d', rawCosine]
  case h_7 =>
    simp only [rawInterference, truncAngle_slot (hbelow (phase_inRange hnx h32 hf (by decide))) d d',
      truncAngle_slot (hbelow (phase_inRange hny h32 hf (by decide))) (d + 1) (d' + 1)]
  case h_8 =>
    simp only [rawCheckerboard, truncS32_slot (hbelow (phase_inRange hnx h8 hf (by decide))) d d',
      truncS32_slot (hbelow (phase_inRange hny h8 hf (by decide))) (d + 1) (d' + 1)]
  all_goals rfl

theorem overlay_slot (hns : InRange p.nscale 0 1) (d d' : Nat) (v : F32) : overlay p d x y v = overlay p d' x y v := by
  obtain ⟨hw, hh⟩ := dims_le hdims
  have hscaled {c : Nat} (hc : c ≤ 2 ^ 20) : S32InRange (fmul (cvtF32 c) p.nscale) := by
    have hc24 : c ≤ 2 ^ 24 := hc.trans (by decide)
    obtain ⟨hfin, hreal⟩ := cvtF32_natCast hc24
    have hcoordinate : InRange (cvtF32 c) 0 c := ⟨hfin, hreal ▸ Nat.cast_nonneg c, hreal.le⟩
    have hprod := hcoordinate.mul_of_nonneg hns (by rw [mul_one]; exact representable_natCast hc24)
    exact s32InRange_of_inRange (hprod.mono le_rfl (by rw [mul_one]; exact_mod_cast hc24))
  exact overlay_of_range (hscaled (hx.le.trans hw)) (hscaled (hy.le.trans hh)) d d' v

end Documented

theorem quantise_slot {v : F32} (h : InRange v 0 1) (k k' : Nat) : quantise v k = quantise v k' := by
  rw [quantise_of_finite (mul_f255_inRange h).finite, quantise_of_finite (mul_f255_inRange h).finite]

/-- Settles O24: every operand of a conversion is in its range, and the quantised value in [0, 1]. -/
theorem documentedRangesMakeNoDraw : Obligations.DocumentedRangesMakeNoDraw := by
  unfold Obligations.DocumentedRangesMakeNoDraw
  intro p d d' x y hblock hdims hx hy hflo hfhi hnlo hnhi
  have htenth : InRange 0x3DCCCCCD#32 0 (1 : Nat) := inRange_of_bounds (by decide +kernel) (by decide)
  have hfour : InRange 0x40800000#32 0 (4 : Nat) := inRange_of_bounds (by decide +kernel) (by decide)
  have hlimit : InRange 0x3D4CCCCD#32 0 (1 : Nat) := inRange_of_bounds (by decide +kernel) (by decide)
  have hf : InRange p.freq 0 4 := (inRange_of_fle rfl rfl hflo hfhi).mono htenth.ge hfour.le
  have hns : InRange p.nscale 0 1 :=
    (inRange_of_fle (a := fZero) rfl rfl hnlo hnhi).mono real_fZero.ge (hlimit.le.trans (by rw [Nat.cast_one]))
  have hraw := rawValue_inRange hdims hx hy (by rw [hblock]; decide) (by rw [hblock]; rfl) (by rw [hblock]; rfl) d'
  have hfin := overlay_finite (p := p) (by rw [hblock]; rfl) (by rw [hblock]; rfl) hraw d' x y
  rw [evaluate, evaluate, rawValue_slot hdims hx hy hf d d', overlay_slot hdims hx hy hns d d']
  exact quantise_slot (invertUnit_inRange (clampUnit_inRange hfin) p.invert) _ _

end Sys2Proof.Machine
end
